-- ==== Sys2Proof/Word.lean ====
section
/-! DEFINITION. The word type of the boundary formats (12_boundary_formats): bytes. -/

namespace Sys2Proof

/-- One byte as it crosses a boundary of the part (chapter Boundary Formats). -/
abbrev Byte := BitVec 8

end Sys2Proof
end

