-- ==== Sys2Proof/Syntax.lean ====
section
/-! DEFINITION. The commands of the block: one constructor for each row of opcode_table.json, with what the outside, or
the block handing an operation over, says with it. -/

namespace Sys2Proof

/-- The finding of the audit for one slot over a window (R160). -/
inductive Finding where
  | quiet
  | active
deriving DecidableEq, Repr

/-- A write transaction on the management port, at the rising edge of CS_N (R172): the bytes received after the function
byte, and whether the transaction ended after a whole number of bytes. -/
structure SpiWrite where
  bytes : List Byte
  whole : Bool
deriving DecidableEq, Repr

/-- What every reply frame of a station carries (R92): its source address, its sequence number and its acknowledgment
field, a notice number or none (R123). -/
structure ReplyHead where
  source : Byte
  seq : BitVec 4
  ack : Option Byte
deriving DecidableEq, Repr

/-- A character received on the request line (R130, R131): its data bits, whether its stop bit was sampled as mark, and
whether a gap of 15 µs or more (and less than 30 µs) came before it in the frame. -/
structure RxChar where
  data : Byte
  stopBit : Bool
  lateGap : Bool
deriving DecidableEq, Repr

/-- The commands, in the order of opcode_table.json. A management command carries the bytes after its code; a station
reply its head and the bytes after the request kind. -/
inductive Instr where
  | powerOnReset
  | writeCommand (w : SpiWrite)
  | writeAlarmEnable (w : SpiWrite)
  | clearAlarms (w : SpiWrite)
  | readSlot (fields : List Byte)
  | readLease (fields : List Byte)
  | readStation (fields : List Byte)
  | readQueue (fields : List Byte)
  | readCounts (fields : List Byte)
  | readPolicy (fields : List Byte)
  | setPolicy (fields : List Byte)
  | setQuota (fields : List Byte)
  | houseGrant (fields : List Byte)
  | pinOn (fields : List Byte)
  | pinOff (fields : List Byte)
  | revokeSoft (fields : List Byte)
  | revokeImmediate (fields : List Byte)
  | bar (fields : List Byte)
  | unbar (fields : List Byte)
  | resize (fields : List Byte)
  | evict (fields : List Byte)
  | clearLeases (fields : List Byte)
  | softReset (fields : List Byte)
  | join (h : ReplyHead) (fields : List Byte)
  | leave (h : ReplyHead) (fields : List Byte)
  | grant (h : ReplyHead) (fields : List Byte)
  | renew (h : ReplyHead) (fields : List Byte)
  | release (h : ReplyHead) (fields : List Byte)
  | attach (h : ReplyHead) (fields : List Byte)
  | detach (h : ReplyHead) (fields : List Byte)
  | querySlot (h : ReplyHead) (fields : List Byte)
  | queryLease (h : ReplyHead) (fields : List Byte)
  | listMine (h : ReplyHead) (fields : List Byte)
  | cancel (h : ReplyHead) (fields : List Byte)
  | idle (h : ReplyHead)
  /-- The bytes after the acknowledgment number: the kind byte and what follows it, or no byte at all (R92). -/
  | unknownKindRequest (h : ReplyHead) (body : List Byte)
  | missReport (address : Nat)
  | silenceExpiry (address : Nat)
  /-- The audit report: the findings of slots 1 to 63 in order (R160). -/
  | periodClose (report : List Finding)
  | termExpiry (lease : Nat)
  | endDeadlineExpiry (lease : Nat)
  | coolingEnd (slot : Nat)
  | waitExpiry (ticket : Nat)
  | tfsRecognised (tdat : Bool)
  /-- Whether a TFS is recognised at the frame start (R150). -/
  | frameStart (tfs : Bool)
  /-- Whether a TFS is recognised at the frame start that ends frame 1023 (R158). -/
  | windowComplete (tfs : Bool)
  | tclkLost
  | poll
  | pollSent
  | replyStart
  | replyWindowExpiry
  | frameEnd (chars : List RxChar)
  | thirtyThirdCharacter
  | responseSent
  /-- The levels of TFS and TDAT sampled in the TCLK period (R149). -/
  | tclkPeriod (tfs tdat : Bool)
deriving DecidableEq, Repr

end Sys2Proof
end

