-- ==== Sys2Proof/Decode.lean ====
section
/-! DEFINITION. The decoder over the rows of opcode_table.json that give bits: none does, so no word spells a command. -/

namespace Sys2Proof

/-- No row of the table gives bits (`fields` is empty in every row), so no word spells a command. -/
def decodeTableWord (_nbits _w : Nat) : Option Instr := none

end Sys2Proof
end

