-- ==== Sys2Proof/Config.lean ====
section
/-! DEFINITION. What the part fixes: the sizes of its tables and the limits the rules name. The spec leaves no value of
a command's result open, so there is no free value here. -/

namespace Sys2Proof.Config

/-- Slots 1 to 63 have a record (R2). -/
def slotCount : Nat := 63

/-- The lease table has 48 entries (R27, section 2.2). -/
def leaseCount : Nat := 48

/-- The station table has 30 places (R72). -/
def stationCount : Nat := 30

/-- The house, owner address 31 (R44, R72). -/
def house : Nat := 31

/-- The pending queue holds at most 16 entries (R57). -/
def queueMax : Nat := 16

/-- A station has at most 2 pending entries (R57). -/
def stationQueueMax : Nat := 2

/-- A notice queue holds at most 4 notices (R117). -/
def noticeMax : Nat := 4

/-- A lease has at most 4 listeners (R45). -/
def listenerMax : Nat := 4

/-- A LIST_MINE page holds at most 6 handles (R111). -/
def pageMax : Nat := 6

/-- A WRITE COMMAND carries at most 24 command bytes (R175). -/
def commandMax : Nat := 24

/-- A request-line body holds at most 25 bytes (R132). -/
def bodyMax : Nat := 25

/-- The TCLK periods of a trunk frame (8.1). -/
def frameBits : Nat := 512

/-- The frames of a window (8.3). -/
def windowFrames : Nat := 1024

/-- The good judgements that CONFIRMING takes to reach LOCKED (R153). -/
def confirmGoal : Nat := 4

/-- The bad judgement in a row at which the trunk is lost (R155). -/
def badGoal : Nat := 3

/-- The 20 µs of the GAP state (R134). -/
def gapTime : Nat := 20

/-- One character time on the request line, in µs (R130). -/
def charTime : Nat := 10

/-- The µs without TCLK after which TCLK is lost (R156). -/
def tclkLimit : Nat := 1000

end Sys2Proof.Config
end

