-- ==== Sys2Proof/Machine/State.lean ====
section
/-! DEFINITION. Every record of the part as plain data, and the part right after a power-on reset. A field that a rule
calls absent in some states is absent here too: it belongs to the constructor of the states that carry it. -/

namespace Sys2Proof.Machine

/-- The reason of a bar (R2). -/
inductive BarReason where
  | manager
  | linger
deriving DecidableEq, Repr

/-- The state of a slot of the stream area with the fields present in it (R2). -/
inductive SlotState where
  | free (mark : Bool)
  | leased (lease : Nat)
  | cooling (cool linger : Nat)
  | barred (reason : BarReason)
deriving DecidableEq, Repr

/-- The record of a slot (R2): a slot above SA keeps only its OUTSIDE state (R1); last activity is present in the stream
area. -/
inductive Slot where
  | outside
  | inArea (state : SlotState) (last : Finding)
deriving DecidableEq, Repr

/-- The end reasons of an ENDING lease (R27, R30). -/
inductive EndReason where
  | expired
  | revoked
  | idle
deriving DecidableEq, Repr

/-- The retirement reasons (R37). -/
inductive RetireReason where
  | released
  | revoked
  | ownerLost
  | ownerLeft
  | cleared
  | expired
  | idle
deriving DecidableEq, Repr

/-- The refusal reasons of a REFUSED notice (R120). -/
inductive RefuseReason where
  | quota
  | timeout
  | noRoom
  | cleared
deriving DecidableEq, Repr

/-- A handle: a lease index and an epoch (R28). -/
structure Handle where
  index : Nat
  epoch : Nat
deriving DecidableEq, Repr

/-- The term of a lease and, when it is not open, the periods remaining (R27). -/
inductive LeaseTerm where
  | openEnded
  | periods (term remaining : Nat)
deriving DecidableEq, Repr

/-- ACTIVE, or ENDING with its end reason, its end deadline and, when the ENDING notice was queued, its number (R27). -/
inductive Phase where
  | active
  | ending (reason : EndReason) (deadline : Nat) (notice : Option Byte)
deriving DecidableEq, Repr

/-- The fields of an ACTIVE or ENDING lease (R27). -/
structure Lease where
  owner : Nat
  slots : List Nat
  term : LeaseTerm
  warned : Bool
  idleLimit : Nat
  idleCount : Nat
  pinned : Bool
  listeners : List Nat
  phase : Phase
deriving DecidableEq, Repr

/-- A lease entry (R27): its epoch, always present, and its lease; FREE when it holds none. -/
structure LeaseEntry where
  epoch : BitVec 4
  lease : Option Lease
deriving DecidableEq, Repr

/-- A pending entry (R55); a term of none is open. -/
structure PendingEntry where
  ticket : Nat
  station : Nat
  count : Nat
  contiguous : Bool
  priority : Nat
  term : Option Nat
  idleLimit : Nat
  wait : Nat
  passed : Nat
  anchored : Bool
deriving DecidableEq, Repr

/-- The contents of a notice by its kind (R120). -/
inductive NoticeContent where
  | granted (ticket : Nat) (handle : Handle) (slots : List Nat) (term : Option Nat)
  | refused (ticket : Nat) (reason : RefuseReason)
  | warn (handle : Handle) (remaining : Nat)
  | ending (handle : Handle) (reason : EndReason) (deadline : Nat)
  | ended (handle : Handle) (reason : RetireReason)
deriving DecidableEq, Repr

/-- A queued notice: its number and its contents (R117, R120). -/
structure Notice where
  number : Byte
  content : NoticeContent
deriving DecidableEq, Repr

/-- JOINED, or SILENT with the ms left on the silence timer, which runs only while SILENT (R73). -/
inductive Liveness where
  | joined
  | silent (ms : Nat)
deriving DecidableEq, Repr

/-- The entry of a present station (R73, R117). The last response is a response body: kind, result code, contents
(R93). -/
structure Station where
  live : Liveness
  tag : BitVec 32
  quota : Nat
  held : Nat
  leaseCount : Nat
  queued : Nat
  misses : Nat
  lastSeq : BitVec 4
  lastResponse : List Byte
  nextNotice : Byte
  notices : List Notice
  overflow : Bool
deriving DecidableEq, Repr

/-- The sixteen policy values (R182), in the order of their ids. -/
structure Policy where
  streamArea : Nat
  coolPeriods : Nat
  endPeriods : Nat
  warnPeriods : Nat
  activeThreshold : Nat
  idleCode : Byte
  defaultQuota : Nat
  maxTerm : Nat
  openTerm : Bool
  queueWait : Nat
  replyWindow : Nat
  missLimit : Nat
  silentLimit : Nat
  joinEvery : Nat
  lingerLimit : Nat
  anchorPasses : Nat
deriving DecidableEq, Repr

/-- What a beacon entry shows of a slot (R19, R164). -/
inductive SlotView where
  | outside
  | free (mark : Bool)
  | leased (lease owner : Nat)
  | ending (lease owner : Nat)
  | cooling
  | barred
deriving DecidableEq, Repr

/-- The map as the beacon shows it, for slots 1 to 63, with SA (R164). -/
structure MapImage where
  area : Nat
  entries : List SlotView
deriving DecidableEq, Repr

/-- The seven alarm flags (R183), in the order of their mask bits (12.4). -/
inductive Alarm where
  | trespass
  | linger
  | syncLost
  | stationLost
  | tableFull
  | queueFull
  | noticeOverflow
deriving DecidableEq, Repr

/-- What an operation of the Table Engine can change: the table store (section 2.1), the policy values and the map epoch
it holds (R182, R164), and the alarm flags it raises in the Management Port (R24, R183). Slot n stands at place n - 1 of
`slots`, and likewise for lease entries and stations. -/
structure Tables where
  slots : List Slot
  leases : List LeaseEntry
  queue : List PendingEntry
  ticket : Nat
  stations : List (Option Station)
  policy : Policy
  mapEpoch : BitVec 16
  reference : MapImage
  alarms : BitVec 7
deriving DecidableEq, Repr

/-- What a reply frame brings to the Table Engine (R92, R138): the request is none for IDLE, otherwise the kind byte and
the fields, or no byte at all. -/
structure ReplyFrame where
  source : Nat
  seq : BitVec 4
  ack : Option Byte
  request : Option (List Byte)
deriving DecidableEq, Repr

/-- A station reply, with whether it answers an open poll (R143), or a miss report naming the polled address (R81). -/
inductive StationOp where
  | reply (frame : ReplyFrame) (openPoll : Bool)
  | miss (address : Nat)
deriving DecidableEq, Repr

/-- The operations handed over and not yet taken (R23), but for the management command, which the port holds. Reports and
expiries are listed oldest and lowest first. -/
structure Arbiter where
  closes : List (List Finding)
  expiries : List Nat
  station : Option StationOp
deriving DecidableEq, Repr

/-- The exchange states of the Request Line Controller with what each holds (R134). Times are in µs; destination 0 is the
open address. `finishChar` is the end of a SEND_POLL or SEND_RESPONSE that a soft reset has abandoned: the character being
sent, with its time left (R146; log entry 14). -/
inductive Exchange where
  | gap (elapsed : Nat)
  | sendPoll (destination : Nat) (frame : List Byte) (window left : Nat)
  | awaitReply (destination left : Nat)
  | receiving (destination : Nat)
  | waitEngine (destination : Nat)
  | sendResponse (frame : List Byte) (left : Nat)
  | finishChar (char : Byte) (left : Nat)
deriving DecidableEq, Repr

/-- The schedule position (R140), and whether the next poll is the open poll that follows a reset (R146, R147). -/
structure Schedule where
  round : BitVec 2
  last : Nat
  opens : Nat
  openDue : Bool
deriving DecidableEq, Repr

/-- The Request Line Controller. -/
structure Line where
  exchange : Exchange
  schedule : Schedule
deriving DecidableEq, Repr

/-- A frame alignment (R149, R150): the bit position, whether a TFS was recognised away from the frame start since the last
one, and the bits of the slot byte under way. -/
structure Alignment where
  bitPos : Nat
  misplaced : Bool
  shift : Byte
deriving DecidableEq, Repr

/-- A window under way (R151, R158, R159): the period frame number, the activity counts of slots 1 to 63, and IDLE_CODE as
it stood when the frame began. -/
structure Window where
  frame : Nat
  counts : List Nat
  idle : Byte
deriving DecidableEq, Repr

/-- The sync states with the fields present in each (R151). -/
inductive Sync where
  | unlocked
  | confirming (al : Alignment) (good : Nat)
  | locked (al : Alignment) (w : Window)
  | slipping (al : Alignment) (w : Window) (bad : Nat)
deriving DecidableEq, Repr

/-- The Trunk Monitor: its sync state, whether TFS was sampled deasserted in the TCLK period before (R149), and the µs since
the last TCLK period, up to 1000 (R156). -/
structure Trunk where
  sync : Sync
  tfsWasLow : Bool
  tclkWatch : Nat
deriving DecidableEq, Repr

/-- The Beacon Generator's images (R166). Its transmit position is the Trunk Monitor's period frame number. -/
structure Beacon where
  current : Option (List Byte)
  next : Option (List Byte)
deriving DecidableEq, Repr

/-- The result codes of a management command (R176), in the order of their values (12.4). -/
inductive CmdResult where
  | ok
  | badCommand
  | badValue
  | staleHandle
  | slotInUse
  | areaInUse
  | tableFull
  | noStation
  | notAllowed
deriving DecidableEq, Repr

/-- The response buffer of the mailbox (R174). -/
structure CmdResponse where
  code : Byte
  result : CmdResult
  body : List Byte
deriving DecidableEq, Repr

/-- The port state with its buffers (R174): the command buffer while BUSY, the response buffer while DONE. -/
inductive PortState where
  | idle
  | busy (command : List Byte)
  | done (response : CmdResponse)
deriving DecidableEq, Repr

/-- The Management Port, but for the alarm flags, which stand beside the tables. -/
structure Port where
  mailbox : PortState
  rejected : Bool
  enables : BitVec 7
deriving DecidableEq, Repr

/-- The whole part, and the queue of commands waiting. `usPhase` is the model's own: the µs passed of the millisecond under
way, for the silence timers (R84). -/
structure State where
  te : Tables
  arbiter : Arbiter
  line : Line
  trunk : Trunk
  beacon : Beacon
  port : Port
  usPhase : Nat
  pending : List Instr
deriving DecidableEq, Repr

/-- No command stops the part: the spec gives no fault, and refusals are result codes (R93, R176). Safe: the type has no
constructor, so no run ends in a fault. -/
inductive Fault where
deriving DecidableEq, Repr

/-- The reasons of a refusal. -/
inductive Refusal where
  /-- Raised by no arm: every command has its meaning. Safe. -/
  | notModelled (mnemonic : String)
deriving DecidableEq, Repr

/-- The policy values after a power-on reset (R182). -/
def Policy.powerOn : Policy where
  streamArea := 47
  coolPeriods := 4
  endPeriods := 8
  warnPeriods := 16
  activeThreshold := 16
  idleCode := 0xFF
  defaultQuota := 8
  maxTerm := 9375
  openTerm := false
  queueWait := 40
  replyWindow := 150
  missLimit := 3
  silentLimit := 3000
  joinEvery := 1
  lingerLimit := 3
  anchorPasses := 8

/-- The slot map of a given SA with every slot of the stream area FREE, unmarked and quiet (R20, R21). -/
def freshSlots (area : Nat) : List Slot :=
  (List.range Config.slotCount).map fun k =>
    if k < area then .inArea (.free false) .quiet else .outside

/-- The beacon entries of that map (R170, R171). -/
def freshImage (area : Nat) : MapImage where
  area := area
  entries := (List.range Config.slotCount).map fun k => if k < area then .free false else .outside

/-- The tables after a power-on reset (R20, R47, R70, R90, R170, R187). -/
def Tables.powerOn : Tables where
  slots := freshSlots 47
  leases := List.replicate Config.leaseCount ⟨0, none⟩
  queue := []
  ticket := 1
  stations := List.replicate Config.stationCount none
  policy := Policy.powerOn
  mapEpoch := 0
  reference := freshImage 47
  alarms := 0

/-- The machine right after reset (R20, R47, R70, R90, R129, R147, R162, R170, R187). `tfsWasLow` and `usPhase` are the
model's choice (log entries 8 and 7). -/
def State.reset : State where
  te := Tables.powerOn
  arbiter := ⟨[], [], none⟩
  line := ⟨.gap 0, ⟨0, 0, 0, true⟩⟩
  trunk := ⟨.unlocked, false, 0⟩
  beacon := ⟨none, none⟩
  port := ⟨.idle, false, 0⟩
  usPhase := 0
  pending := []

end Sys2Proof.Machine
end

