-- ==== Sys2Proof/Machine/Formats.lean ====
section
/-! DEFINITION. The byte layouts the part sends (12_boundary_formats): codes, handles, slot lists, terms, notices, frames,
the CRC. -/

namespace Sys2Proof.Machine

/-- A value in one byte. -/
def byte (n : Nat) : Byte := BitVec.ofNat 8 n

/-- A value in two bytes, high byte first (R189). -/
def word (n : Nat) : List Byte := [byte (n / 256), byte n]

/-- A 32-bit value in four bytes, high byte first (R189). -/
def tagBytes (tag : BitVec 32) : List Byte :=
  [tag.extractLsb' 24 8, tag.extractLsb' 16 8, tag.extractLsb' 8 8, tag.extractLsb' 0 8]

/-- Four bytes read as a 32-bit value, high byte first (R189). -/
def tagOf (a b c d : Byte) : BitVec 32 := a ++ b ++ c ++ d

/-- Two bytes read as a number, high byte first (R189). -/
def wordOf (high low : Byte) : Nat := high.toNat * 256 + low.toNat

/-- A yes-or-no field as a byte. -/
def boolByte (b : Bool) : Byte := if b then 1 else 0

/-- A handle: the lease index and then the epoch (chapter 12). -/
def Handle.bytes (h : Handle) : List Byte := [byte h.index, byte h.epoch]

/-- The handle in two bytes (chapter 12). DESIGN CHOICE: the epoch byte is taken whole, so one above 0Fh matches no entry's
epoch (R28; log entry 19). -/
def handleOf (index epoch : Byte) : Handle := ⟨index.toNat, epoch.toNat⟩

/-- A slot list: a count, then eight places, the unused ones 00h (chapter 12). -/
def slotListBytes (slots : List Nat) : List Byte :=
  byte slots.length :: (slots.map byte ++ List.replicate 8 0).take 8

/-- A granted term, 0000h when open (chapter 12). -/
def termBytes (term : Option Nat) : List Byte := word (term.getD 0)

/-- The reason codes (12.2). -/
def EndReason.code : EndReason → Byte
  | .expired => 0x01
  | .revoked => 0x02
  | .idle => 0x03

/-- The reason codes (12.2). -/
def RetireReason.code : RetireReason → Byte
  | .expired => 0x01
  | .revoked => 0x02
  | .idle => 0x03
  | .released => 0x04
  | .ownerLost => 0x05
  | .ownerLeft => 0x06
  | .cleared => 0x07

/-- The reason codes (12.2). -/
def RefuseReason.code : RefuseReason → Byte
  | .cleared => 0x07
  | .quota => 0x08
  | .timeout => 0x09
  | .noRoom => 0x0A

/-- A bar reason: 1 MANAGER, 2 LINGER (12.1, 12.4). -/
def BarReason.code : BarReason → Byte
  | .manager => 1
  | .linger => 2

/-- The retirement reason of a completed ENDING is its end reason (R37). -/
def EndReason.retire : EndReason → RetireReason
  | .expired => .expired
  | .revoked => .revoked
  | .idle => .idle

/-- The management result codes (12.4). -/
def CmdResult.code : CmdResult → Byte
  | .ok => 0x00
  | .badCommand => 0x01
  | .badValue => 0x02
  | .staleHandle => 0x03
  | .slotInUse => 0x04
  | .areaInUse => 0x05
  | .tableFull => 0x06
  | .noStation => 0x07
  | .notAllowed => 0x08

/-- The result codes of a station request (R93, 12.1). -/
inductive ReqResult where
  | ok
  | wait
  | noRoom
  | quota
  | tableFull
  | queueFull
  | staleHandle
  | notOwner
  | leaseEnding
  | listenersFull
  | alreadyListening
  | notListening
  | noTicket
  | badRequest
  | notJoined
  | addressTaken
deriving DecidableEq, Repr

/-- The byte of a request's result (12.1). -/
def ReqResult.code : ReqResult → Byte
  | .ok => 0x00
  | .wait => 0x01
  | .noRoom => 0x02
  | .quota => 0x03
  | .tableFull => 0x04
  | .queueFull => 0x05
  | .staleHandle => 0x06
  | .notOwner => 0x07
  | .leaseEnding => 0x08
  | .listenersFull => 0x09
  | .alreadyListening => 0x0A
  | .notListening => 0x0B
  | .noTicket => 0x0C
  | .badRequest => 0x0D
  | .notJoined => 0x0E
  | .addressTaken => 0x0F

/-- What a request is answered with: a result and the contents that go with it (R93). -/
structure Answer where
  result : ReqResult
  contents : List Byte
deriving DecidableEq, Repr

/-- The response body: kind, result code, contents (12.1). -/
def Answer.body (kind : Byte) (a : Answer) : List Byte := kind :: a.result.code :: a.contents

/-- A notice: its kind, its number, its contents (12.2). -/
def Notice.bytes (n : Notice) : List Byte :=
  match n.content with
  | .granted ticket handle slots term =>
    [0x01, n.number, byte ticket] ++ handle.bytes ++ slotListBytes slots ++ termBytes term
  | .refused ticket reason => [0x02, n.number, byte ticket, reason.code]
  | .warn handle remaining => [0x03, n.number] ++ handle.bytes ++ [byte remaining]
  | .ending handle reason deadline =>
    [0x04, n.number] ++ handle.bytes ++ [reason.code, byte deadline]
  | .ended handle reason => [0x05, n.number] ++ handle.bytes ++ [reason.code]

/-- One bit enters the CRC register (R188: x^16 + x^12 + x^5 + 1). -/
def crcBit (r : BitVec 16) (b : Bool) : BitVec 16 :=
  (r <<< 1) ^^^ (if r.msb ^^ b then 0x1021#16 else 0)

/-- One byte enters the CRC register, most significant bit first (R188). -/
def crcByte (r : BitVec 16) (b : Byte) : BitVec 16 :=
  [7, 6, 5, 4, 3, 2, 1, 0].foldl (fun r k => crcBit r (b.getLsbD k)) r

/-- The CRC: a register that starts at FFFFh, no final inversion (R188). -/
def crc (bytes : List Byte) : BitVec 16 := bytes.foldl crcByte 0xFFFF#16

/-- The CRC in two bytes, high byte first (R188). -/
def crcBytes (bytes : List Byte) : List Byte :=
  [(crc bytes).extractLsb' 8 8, (crc bytes).extractLsb' 0 8]

/-- Bytes with their CRC after them (R188). -/
def withCrc (bytes : List Byte) : List Byte := bytes ++ crcBytes bytes

/-- The frame kinds (12.1). -/
def kindPoll : Byte := 0x01
/-- The frame kinds (12.1). -/
def kindOpenPoll : Byte := 0x02
/-- The frame kinds (12.1). -/
def kindResponse : Byte := 0x03
/-- The frame kinds (12.1). -/
def kindReply : Byte := 0x04

/-- A request-line frame: five header bytes, the body, the CRC over both (12.1, R188). -/
def lineFrame (destination source kind byte3 : Byte) (body : List Byte) : List Byte :=
  withCrc ([destination, source, kind, byte3, byte body.length] ++ body)

/-- The open poll (12.1, R143). -/
def openPollFrame : List Byte := lineFrame 0 0 kindOpenPoll 0 []

/-- The poll to a station: its notice count, its overflow flag and its oldest notice (R121, 12.1). -/
def pollFrame (address : Nat) (st : Station) : List Byte :=
  lineFrame (byte address) 0 kindPoll
    (byte st.notices.length ||| (if st.overflow then 0x08 else 0))
    (match st.notices with
      | [] => []
      | n :: _ => n.bytes)

/-- The response frame to a station (R139, 12.1). -/
def responseFrame (address : Nat) (seq : BitVec 4) (body : List Byte) : List Byte :=
  lineFrame (byte address) 0 kindResponse (seq.setWidth 8) body

/-- Byte 3 of a reply frame: the sequence number, a request present, an acknowledgment present (12.1). -/
def ReplyFrame.byte3 (f : ReplyFrame) : Byte :=
  f.seq.setWidth 8 ||| (if f.request.isSome then 0x10 else 0) ||| (if f.ack.isSome then 0x20 else 0)

/-- The body of a reply frame: the acknowledged number, then the request kind and its fields (12.1). -/
def ReplyFrame.body (f : ReplyFrame) : List Byte := f.ack.toList ++ f.request.getD []

/-- The reply frame as a station sends it: to the controller, destination 0 (12.1, R133). -/
def ReplyFrame.bytes (f : ReplyFrame) : List Byte :=
  lineFrame 0 (byte f.source) kindReply f.byte3 f.body

/-- Characters received whole and without error. -/
def cleanChars (bytes : List Byte) : List RxChar := bytes.map fun b => ⟨b, true, false⟩

end Sys2Proof.Machine
end

