-- ==== Sys2Proof/Machine/Operands.lean ====
section
/-! DEFINITION. What the bytes that come in say: the management commands (steps 1 and 2 of R177), the station requests
(step 3 of R94, R96) and the reply frames (R132, R133). -/

namespace Sys2Proof.Machine

/-- A management command whose code, length and fields are good (10.3). -/
inductive Command where
  | readSlot (slot : Nat)
  | readLease (index : Nat)
  | readStation (address part : Nat)
  | readQueue (position : Nat)
  | readCounts
  | readPolicy (id : Nat)
  | setPolicy (id value : Nat)
  | setQuota (address quota : Nat)
  | houseGrant (slots : List Nat) (term : Nat) (pinned : Bool)
  | pin (handle : Handle) (on : Bool)
  | revoke (handle : Handle) (immediate : Bool)
  | bar (slot : Nat)
  | unbar (slot : Nat)
  | resize (area : Nat)
  | evict (address : Nat)
  | clearLeases
  | softReset
deriving DecidableEq, Repr

/-- What the first two steps of the check order find (R177): a command, or the refusal. -/
inductive Parsed where
  | good (c : Command)
  | bad (r : CmdResult)
deriving DecidableEq, Repr

/-- A command whose fields lie in their ranges, or BAD_VALUE (R177 step 2). -/
def Parsed.ranged (inRange : Bool) (c : Command) : Parsed :=
  if inRange then .good c else .bad .badValue

/-- A number lies between two bounds. -/
def within (low n high : Nat) : Bool := low ≤ n && n ≤ high

/-- Slot numbers 1 to SA (R177). -/
def inArea (area n : Nat) : Bool := within 1 n area && n ≤ Config.slotCount

/-- Lease indices 1 to 48 (R28, R177). -/
def isIndex (i : Nat) : Bool := within 1 i Config.leaseCount

/-- Station addresses 1 to 30 (R72, R177). -/
def isStation (a : Nat) : Bool := within 1 a Config.stationCount

/-- The range of each policy value by id (R182). -/
def policyRange : Nat → Nat × Nat
  | 1 => (8, 63)
  | 2 => (1, 15)
  | 3 => (1, 15)
  | 4 => (0, 255)
  | 5 => (1, 1023)
  | 6 => (0, 255)
  | 7 => (0, 63)
  | 8 => (1, 65535)
  | 9 => (0, 1)
  | 10 => (1, 255)
  | 11 => (20, 2000)
  | 12 => (1, 15)
  | 13 => (100, 60000)
  | 14 => (1, 16)
  | 15 => (1, 7)
  | 16 => (1, 15)
  | _ => (1, 0)

/-- A policy id, 1 to 16 (R182). -/
def isPolicyId (id : Nat) : Bool := within 1 id 16

/-- A value lies in the range of its policy id (R182). -/
def policyValueOk (id value : Nat) : Bool := within (policyRange id).1 value (policyRange id).2

/-- The numbers of a list that stands in any order, ascending and once each, up to a bound. -/
def ascending (bound : Nat) (ns : List Nat) : List Nat :=
  (List.range' 1 bound).filter fun n => ns.contains n

/-- HOUSE_GRANT, whose length is judged against its count byte (R177, R180). -/
def parseHouseGrant (area : Nat) : List Byte → Parsed
  | [] => .bad .badCommand
  | count :: rest =>
    let n := count.toNat
    let slots := (rest.take n).map BitVec.toNat
    match rest.drop n with
    | [high, low, pinned] =>
      .ranged
        (within 1 n 8 && rest.length == n + 3 && slots.all (inArea area) && slots.Nodup &&
          pinned.toNat ≤ 1)
        (.houseGrant (ascending area slots) (wordOf high low) (pinned == 1))
    | _ => .bad .badValue

/-- The fields of a form that has none; bytes beyond its length are BAD_COMMAND (R177 step 1). -/
def fields0 (c : Parsed) : List Byte → Parsed
  | [] => c
  | _ => .bad .badCommand

/-- The one field byte of a form; another length is BAD_COMMAND (R177 step 1). -/
def fields1 (c : Byte → Parsed) : List Byte → Parsed
  | [a] => c a
  | _ => .bad .badCommand

/-- The two field bytes of a form; another length is BAD_COMMAND (R177 step 1). -/
def fields2 (c : Byte → Byte → Parsed) : List Byte → Parsed
  | [a, b] => c a b
  | _ => .bad .badCommand

/-- The three field bytes of a form; another length is BAD_COMMAND (R177 step 1). -/
def fields3 (c : Byte → Byte → Byte → Parsed) : List Byte → Parsed
  | [a, b, d] => c a b d
  | _ => .bad .badCommand

/-- The fields of a command by its code, with the lengths and ranges of 12.4; SA bounds the slots of BAR, UNBAR and
HOUSE_GRANT. -/
def parseFields (area code : Nat) (fields : List Byte) : Parsed :=
  match code with
  | 0x01 => fields |> fields1 fun slot => .ranged (within 1 slot.toNat Config.slotCount) (.readSlot slot.toNat)
  | 0x02 => fields |> fields1 fun index => .ranged (isIndex index.toNat) (.readLease index.toNat)
  | 0x03 => fields |> fields2 fun address part =>
    .ranged (isStation address.toNat && part.toNat ≤ 5) (.readStation address.toNat part.toNat)
  | 0x04 => fields |> fields1 fun position => .ranged (position.toNat ≤ 15) (.readQueue position.toNat)
  | 0x05 => fields |> fields0 (.good .readCounts)
  | 0x06 => fields |> fields1 fun id => .ranged (isPolicyId id.toNat) (.readPolicy id.toNat)
  | 0x07 => fields |> fields3 fun id high low =>
    .ranged (isPolicyId id.toNat && policyValueOk id.toNat (wordOf high low)) (.setPolicy id.toNat (wordOf high low))
  | 0x08 => fields |> fields2 fun address quota =>
    .ranged (isStation address.toNat && quota.toNat ≤ 63) (.setQuota address.toNat quota.toNat)
  | 0x09 => parseHouseGrant area fields
  | 0x0A => fields |> fields3 fun index epoch on =>
    .ranged (isIndex index.toNat && on.toNat ≤ 1) (.pin (handleOf index epoch) (on == 1))
  | 0x0B => fields |> fields3 fun index epoch immediate =>
    .ranged (isIndex index.toNat && immediate.toNat ≤ 1) (.revoke (handleOf index epoch) (immediate == 1))
  | 0x0C => fields |> fields1 fun slot => .ranged (inArea area slot.toNat) (.bar slot.toNat)
  | 0x0D => fields |> fields1 fun slot => .ranged (inArea area slot.toNat) (.unbar slot.toNat)
  | 0x0E => fields |> fields1 fun newArea => .ranged (within 8 newArea.toNat 63) (.resize newArea.toNat)
  | 0x0F => fields |> fields1 fun address => .ranged (isStation address.toNat) (.evict address.toNat)
  | 0x10 => fields |> fields0 (.good .clearLeases)
  | 0x11 => fields |> fields0 (.good .softReset)
  | _ => .bad .badCommand

/-- Steps 1 and 2 of the check order (R177); a code that names no command is BAD_COMMAND. -/
def parseCommand (area : Nat) : List Byte → Parsed
  | [] => .bad .badCommand
  | code :: fields => parseFields area code.toNat fields

/-- A GRANT as the grant decision takes it (R103). -/
structure GrantAsk where
  count : Nat
  contiguous : Bool
  wait : Bool
  priority : Nat
  term : Nat
  idleLimit : Nat
deriving DecidableEq, Repr

/-- A request whose kind is known and whose length and fields are good (R94 step 3). JOIN is read on its own (R101). -/
inductive Request where
  | leave
  | grant (g : GrantAsk)
  | renew (handle : Handle) (term : Nat)
  | release (handle : Handle)
  | attach (handle : Handle)
  | detach (handle : Handle)
  | querySlot (slot : Nat)
  | queryLease (handle : Handle)
  | listMine (start : Nat)
  | cancel (ticket : Nat)
deriving DecidableEq, Repr

/-- A request on a handle, when its index is 1 to 48 (R96). -/
def onHandle (index epoch : Byte) (r : Handle → Request) : Option Request :=
  if isIndex index.toNat then some (r (handleOf index epoch)) else none

/-- A request with a slot number, a start index or a ticket in its one field byte; none for another length. -/
def onByte (fields : List Byte) (r : Byte → Option Request) : Option Request :=
  match fields with
  | [a] => r a
  | _ => none

/-- A request with a handle alone; none for another length or an index out of range. -/
def onHandleOnly (fields : List Byte) (r : Handle → Request) : Option Request :=
  match fields with
  | [index, epoch] => onHandle index epoch r
  | _ => none

/-- The fields of a GRANT (R103, 12.1). -/
def parseGrant : List Byte → Option Request
  | [count, flags, priority, high, low, idle] =>
    if within 1 count.toNat 8 && flags.toNat ≤ 3 && priority.toNat ≤ 3 then
      some (.grant ⟨count.toNat, flags.getLsbD 0, flags.getLsbD 1, priority.toNat, wordOf high low, idle.toNat⟩)
    else none
  | _ => none

/-- The fields of a RENEW (R104, 12.1). -/
def parseRenew : List Byte → Option Request
  | [index, epoch, high, low] => onHandle index epoch (.renew · (wordOf high low))
  | _ => none

/-- The fields of a request by its kind, with the lengths and ranges of 12.1. -/
def requestFields (kind : Nat) (fields : List Byte) : Option Request :=
  match kind with
  | 0x02 => if fields = [] then some .leave else none
  | 0x03 => parseGrant fields
  | 0x04 => parseRenew fields
  | 0x05 => onHandleOnly fields .release
  | 0x06 => onHandleOnly fields .attach
  | 0x07 => onHandleOnly fields .detach
  | 0x08 => onByte fields fun n => if within 1 n.toNat Config.slotCount then some (.querySlot n.toNat) else none
  | 0x09 => onHandleOnly fields .queryLease
  | 0x0A => onByte fields fun start => if isIndex start.toNat then some (.listMine start.toNat) else none
  | 0x0B => onByte fields fun ticket => if ticket.toNat = 0 then none else some (.cancel ticket.toNat)
  | _ => none

/-- Step 3 of the check order (R94, R96): none is BAD_REQUEST. -/
def parseRequest : List Byte → Option Request
  | [] => none
  | kind :: fields => requestFields kind.toNat fields

/-- The kind byte a response to the request bears: 00h where the request has none (R92). -/
def requestKind (request : List Byte) : Byte := request.headD 0

/-- The request is a JOIN (12.1). -/
def isJoin (request : List Byte) : Bool := request.head? == some 0x01

/-- The tag of a JOIN whose body has the length of a JOIN (R101). -/
def joinTag : List Byte → Option (BitVec 32)
  | [kind, a, b, c, d] => if kind = 0x01 then some (tagOf a b c d) else none
  | _ => none

/-- An intact frame as its header bytes and its body lay it out (R132). -/
structure LineFrame where
  destination : Byte
  source : Byte
  kind : Byte
  byte3 : Byte
  body : List Byte
deriving DecidableEq, Repr

/-- A received frame, when none of the conditions of R132 makes it corrupt. -/
def intactFrame (chars : List RxChar) : Option LineFrame :=
  let bytes := chars.map RxChar.data
  if chars.all RxChar.stopBit && !chars.tail.any RxChar.lateGap then
    match bytes with
    | d :: s :: k :: b :: len :: rest =>
      if len.toNat ≤ Config.bodyMax && bytes.length == 5 + len.toNat + 2 &&
          crcBytes (bytes.take (5 + len.toNat)) == bytes.drop (5 + len.toNat) then
        some ⟨d, s, k, b, rest.take len.toNat⟩
      else none
    | _ => none
  else none

/-- The request and acknowledgment of a REPLY to the controller whose body agrees with bits 4 and 5 of its byte 3 (R92,
R133). -/
def replyOf (f : LineFrame) : Option ReplyFrame :=
  let hasRequest := f.byte3.getLsbD 4
  let hasAck := f.byte3.getLsbD 5
  if f.kind == kindReply && f.destination == 0 then
    match hasAck, f.body with
    | true, [] => none
    | true, a :: rest =>
      if hasRequest then some ⟨f.source.toNat, f.byte3.setWidth 4, some a, some rest⟩
      else if rest.isEmpty then some ⟨f.source.toNat, f.byte3.setWidth 4, some a, none⟩
      else none
    | false, body =>
      if hasRequest then some ⟨f.source.toNat, f.byte3.setWidth 4, none, some body⟩
      else if body.isEmpty then some ⟨f.source.toNat, f.byte3.setWidth 4, none, none⟩
      else none
  else none

/-- A valid reply to a poll (R133): from the polled station, or, after an open poll, a candidate join, from an address 1 to
30. -/
def validReply (destination : Nat) (chars : List RxChar) : Option ReplyFrame :=
  match (intactFrame chars).bind replyOf with
  | none => none
  | some f =>
    if destination = 0 then (if isStation f.source then some f else none)
    else if f.source = destination then some f
    else none

end Sys2Proof.Machine
end

