-- ==== Sys2Proof/Machine/Flags.lean ====
section
/-! DEFINITION. The alarm flags, the status byte and ALERT_N (R183 to R185, R173, 12.4). -/

namespace Sys2Proof.Machine

/-- The place of a flag in the mask byte (12.4). -/
def Alarm.bit : Alarm → Nat
  | .trespass => 0
  | .linger => 1
  | .syncLost => 2
  | .stationLost => 3
  | .tableFull => 4
  | .queueFull => 5
  | .noticeOverflow => 6

/-- The mask with the one bit of a flag. -/
def Alarm.mask (a : Alarm) : BitVec 7 := 1#7 <<< a.bit

/-- Raising a flag sets it; a flag already set stays set (R183). -/
def Tables.raise (t : Tables) (a : Alarm) : Tables := { t with alarms := t.alarms ||| a.mask }

/-- CLEAR ALARMS: each flag whose mask bit is set is cleared; bit 7 names no flag (R184). -/
def Tables.clearAlarms (t : Tables) (mask : Byte) : Tables :=
  { t with alarms := t.alarms &&& ~~~(mask.setWidth 7) }

/-- The flag is set. -/
def Tables.alarmSet (t : Tables) (a : Alarm) : Bool := t.alarms.getLsbD a.bit

/-- ALERT_N is asserted (driven low) while an enabled flag is set (R185). -/
def State.alertAsserted (s : State) : Bool := s.te.alarms &&& s.port.enables != 0

/-- The level of the pin ALERT_N: high unless asserted (R185). -/
def State.alertN (s : State) : Bool := !s.alertAsserted

/-- The code of the port state in the status byte (12.4). -/
def PortState.code : PortState → Byte
  | .idle => 0
  | .busy _ => 1
  | .done _ => 2

/-- A bit of a byte that is set when a flag is. -/
def flagBit (b : Bool) (place : Nat) : Byte := if b then 1#8 <<< place else 0

/-- The status byte (R173, 12.4). -/
def State.statusByte (s : State) : Byte :=
  s.port.mailbox.code ||| flagBit s.port.rejected 2 ||| flagBit (s.te.alarms != 0) 3 |||
    flagBit s.alertAsserted 4

end Sys2Proof.Machine
end

