-- ==== Sys2Proof/Machine/Ops.lean ====
section
/-! DEFINITION. The named operations over the table store that several rules share: reading and writing records, posting
notices, creating, ending and retiring leases, the audit counts of the map. -/

namespace Sys2Proof.Machine

/-! ### Records by number -/

/-- The n-th element of a list counted from 1. -/
def nth? {α : Type} (l : List α) (n : Nat) : Option α := if n = 0 then none else l[n - 1]?

/-- The list with its n-th element, counted from 1, replaced. -/
def setNth {α : Type} (l : List α) (n : Nat) (v : α) : List α :=
  if n = 0 then l else l.set (n - 1) v

/-- The record of a slot; a number without a record reads as OUTSIDE (R1; log entry 10). -/
def Tables.slot (t : Tables) (n : Nat) : Slot := (nth? t.slots n).getD .outside

/-- The state of a slot of the stream area. -/
def Tables.slotState? (t : Tables) (n : Nat) : Option SlotState :=
  match t.slot n with
  | .outside => none
  | .inArea st _ => some st

/-- Write a slot record. -/
def Tables.setSlot (t : Tables) (n : Nat) (v : Slot) : Tables :=
  { t with slots := setNth t.slots n v }

/-- Change the state of a slot of the stream area; last activity stays through every such change (R2). -/
def Tables.setSlotState (t : Tables) (n : Nat) (st : SlotState) : Tables :=
  match t.slot n with
  | .outside => t
  | .inArea _ last => t.setSlot n (.inArea st last)

/-- The same change of several slots, in one operation. -/
def Tables.setSlotStates (t : Tables) (ns : List Nat) (st : SlotState) : Tables :=
  ns.foldl (fun t n => t.setSlotState n st) t

/-- A lease entry; an index without an entry reads as FREE (log entry 10). -/
def Tables.entry (t : Tables) (i : Nat) : LeaseEntry := (nth? t.leases i).getD ⟨0, none⟩

/-- The lease an entry holds. -/
def Tables.lease? (t : Tables) (i : Nat) : Option Lease := (t.entry i).lease

/-- Write a lease into an entry, which keeps its epoch (R28, R29). -/
def Tables.setLease (t : Tables) (i : Nat) (l : Lease) : Tables :=
  { t with leases := setNth t.leases i ⟨(t.entry i).epoch, some l⟩ }

/-- Free an entry: its epoch rises by 1, from 15 to 0, and its other fields are removed (R28). -/
def Tables.freeEntry (t : Tables) (i : Nat) : Tables :=
  { t with leases := setNth t.leases i ⟨(t.entry i).epoch + 1, none⟩ }

/-- The handle of the lease in an entry (R28). -/
def Tables.handle (t : Tables) (i : Nat) : Handle := ⟨i, (t.entry i).epoch.toNat⟩

/-- The lease a handle names, when the handle is valid (R28). -/
def Tables.validLease? (t : Tables) (h : Handle) : Option Lease :=
  if h.epoch = (t.entry h.index).epoch.toNat then t.lease? h.index else none

/-- The lease indices in ascending order. -/
def leaseIndices : List Nat := List.range' 1 Config.leaseCount

/-- The slot numbers in ascending order. -/
def slotNumbers : List Nat := List.range' 1 Config.slotCount

/-- The station addresses in ascending order. -/
def addresses : List Nat := List.range' 1 Config.stationCount

/-- The entry of a station, when it is present; the house and address 0 have none (R72). -/
def Tables.station? (t : Tables) (a : Nat) : Option Station := (nth? t.stations a).join

/-- Write a station's place: an entry, or none. -/
def Tables.setStation (t : Tables) (a : Nat) (st : Option Station) : Tables :=
  { t with stations := setNth t.stations a st }

/-- Change the entry of a station, when it is present. -/
def Tables.modifyStation (t : Tables) (a : Nat) (f : Station → Station) : Tables :=
  match t.station? a with
  | none => t
  | some st => t.setStation a (some (f st))

/-- The state is SILENT. -/
def Liveness.isSilent : Liveness → Bool
  | .joined => false
  | .silent _ => true

/-! ### Notices -/

/-- The station's notice queue has room, so the next notice posted to it is queued (R119). -/
def Tables.noticeRoom (t : Tables) (a : Nat) : Option Byte :=
  match t.station? a with
  | none => none
  | some st => if st.notices.length < Config.noticeMax then some st.nextNotice else none

/-- Append a notice with the next notice number (R118). -/
def Station.queueNotice (st : Station) (c : NoticeContent) : Station :=
  { st with notices := st.notices ++ [⟨st.nextNotice, c⟩], nextNotice := st.nextNotice + 1 }

/-- Post a notice (R118); a full queue loses it, which sets the overflow flag and raises NOTICE_OVERFLOW (R119). A notice
to the house or to an absent address is not posted (R118). -/
def Tables.post (t : Tables) (a : Nat) (c : NoticeContent) : Tables :=
  match t.station? a with
  | none => t
  | some st =>
    if st.notices.length < Config.noticeMax then t.setStation a (some (st.queueNotice c))
    else (t.setStation a (some { st with overflow := true })).raise .noticeOverflow

/-- Post the same notice to each address in order (R37). -/
def Tables.postAll (t : Tables) (as : List Nat) (c : NoticeContent) : Tables :=
  as.foldl (fun t a => t.post a c) t

/-! ### The slot map -/

/-- A candidate for a station grant: a slot from 1 to SA that is FREE and carries no trespass mark (R6). -/
def Tables.isCandidate (t : Tables) (n : Nat) : Bool :=
  n ≤ t.policy.streamArea && t.slotState? n == some (.free false)

/-- The slots of the stream area, ascending (R1). -/
def Tables.area (t : Tables) : List Nat := List.range' 1 t.policy.streamArea

/-- The lowest run of consecutive numbers that all satisfy a test, within 1 to SA (R7, R52). -/
def Tables.lowestRun (t : Tables) (count : Nat) (good : Nat → Bool) : Option (List Nat) :=
  (t.area.find? fun k => (List.range' k count).all good).map fun k => List.range' k count

/-- The allocation choice (R6, R7). -/
def Tables.choice (t : Tables) (count : Nat) (contiguous : Bool) : Option (List Nat) :=
  if contiguous then t.lowestRun count t.isCandidate
  else
    let cs := t.area.filter t.isCandidate
    if count ≤ cs.length then some (cs.take count) else none

/-- The slot is FREE, marked or not. -/
def Tables.isFree (t : Tables) (n : Nat) : Bool :=
  match t.slotState? n with
  | some (.free _) => true
  | _ => false

/-- The slot of the stream area is usable: not BARRED (R8). -/
def Tables.isUsable (t : Tables) (n : Nat) : Bool :=
  n ≤ t.policy.streamArea &&
    match t.slotState? n with
    | none => false
    | some (.barred _) => false
    | some _ => true

/-- The free slots (R8). -/
def Tables.freeSlots (t : Tables) : Nat := (t.area.filter t.isFree).length

/-- The grantable slots (R8). -/
def Tables.grantableSlots (t : Tables) : Nat := (t.area.filter t.isCandidate).length

/-- The usable slots (R8). -/
def Tables.usableSlots (t : Tables) : Nat := (t.area.filter t.isUsable).length

/-- The possibility test (R52). -/
def Tables.possible (t : Tables) (count : Nat) (contiguous : Bool) : Bool :=
  count ≤ t.usableSlots && (!contiguous || (t.lowestRun count t.isUsable).isSome)

/-- What a beacon entry shows of a slot, with the ENDING view and the owner read from the lease entry (R3, R164). -/
def Tables.view (t : Tables) (n : Nat) : SlotView :=
  match t.slot n with
  | .outside => .outside
  | .inArea (.free mark) _ => .free mark
  | .inArea (.leased i) _ =>
    match t.lease? i with
    | none => .leased i 0
    | some l =>
      match l.phase with
      | .active => .leased i l.owner
      | .ending _ _ _ => .ending i l.owner
  | .inArea (.cooling _ _) _ => .cooling
  | .inArea (.barred _) _ => .barred

/-- The map as the beacon shows it, with SA (R164). -/
def Tables.image (t : Tables) : MapImage := ⟨t.policy.streamArea, slotNumbers.map t.view⟩

/-! ### Leases -/

/-- The lowest-numbered FREE lease entry (R29). -/
def Tables.freeIndex? (t : Tables) : Option Nat :=
  leaseIndices.find? fun i => (t.lease? i).isNone

/-- Clipping of a requested term, 0 asking for an open one; the result none is open (R50). -/
def Policy.clip (p : Policy) (requested : Nat) : Option Nat :=
  if requested = 0 then (if p.openTerm then none else some p.maxTerm)
  else some (min requested p.maxTerm)

/-- A term granted, with remaining equal to it (R29, R33). -/
def LeaseTerm.ofTerm : Option Nat → LeaseTerm
  | none => .openEnded
  | some n => .periods n n

/-- The term of a lease, none when open. -/
def LeaseTerm.term? : LeaseTerm → Option Nat
  | .openEnded => none
  | .periods n _ => some n

/-- The remaining periods, absent when the term is open (R27). -/
def LeaseTerm.remaining? : LeaseTerm → Option Nat
  | .openEnded => none
  | .periods _ r => some r

/-- The owner's counts rise by a lease's slots and by 1 lease (R29, R74). -/
def Station.addLease (slots : Nat) (st : Station) : Station :=
  { st with held := st.held + slots, leaseCount := st.leaseCount + 1 }

/-- The owner's counts fall by a lease's slots and by 1 lease (R37, R74). -/
def Station.dropLease (slots : Nat) (st : Station) : Station :=
  { st with held := st.held - slots, leaseCount := st.leaseCount - 1 }

/-- The queued count falls by 1 (R74). -/
def Station.dropQueued (st : Station) : Station := { st with queued := st.queued - 1 }

/-- A lease as a grant makes it (R29). -/
def Lease.fresh (owner : Nat) (slots : List Nat) (term : Option Nat) (idleLimit : Nat) (pinned : Bool) :
    Lease where
  owner := owner
  slots := slots
  term := .ofTerm term
  warned := false
  idleLimit := idleLimit
  idleCount := 0
  pinned := pinned
  listeners := []
  phase := .active

/-- A grant: the entry becomes ACTIVE and every slot LEASED with its index; a station owner's counts rise, a house grant
changes no station's counts (R4, R29). -/
def Tables.createLease (t : Tables) (i : Nat) (l : Lease) : Tables :=
  ((t.setLease i l).setSlotStates l.slots (.leased i)).modifyStation l.owner (.addLease l.slots.length)

/-- Entry to ENDING (R30): reason, END_PERIODS, and an ENDING notice to the owner, whose number is recorded when it is
queued. -/
def Tables.enterEnding (t : Tables) (i : Nat) (l : Lease) (reason : EndReason) : Tables :=
  (t.setLease i { l with phase := .ending reason t.policy.endPeriods (t.noticeRoom l.owner) }).post l.owner
    (.ending (t.handle i) reason t.policy.endPeriods)

/-- Retirement (R37): the entry is freed, its slots cool with a full count (R5), a station owner's counts fall, ENDED goes
to the listeners in order and then, when the reason tells it, to the owner. -/
def Tables.retire (t : Tables) (i : Nat) (l : Lease) (reason : RetireReason) (tellOwner : Bool) : Tables :=
  let ended : NoticeContent := .ended (t.handle i) reason
  let freed := ((t.freeEntry i).setSlotStates l.slots (.cooling t.policy.coolPeriods 0)).modifyStation l.owner
    (.dropLease l.slots.length)
  let told := freed.postAll l.listeners ended
  if tellOwner then told.post l.owner ended else told

/-- A fresh term (R33): the clipped term, remaining equal to it, warned no; from ENDING it is also the rescue (R34). -/
def Lease.renewed (l : Lease) (term : Option Nat) : Lease :=
  { l with term := .ofTerm term, warned := false, phase := .active }

/-- The lease is ENDING. -/
def Lease.isEnding (l : Lease) : Bool :=
  match l.phase with
  | .active => false
  | .ending _ _ _ => true

/-- The indices of the leases a station, or the house, owns, ascending. -/
def Tables.ownedBy (t : Tables) (a : Nat) : List Nat :=
  leaseIndices.filter fun i => (t.lease? i).any fun l => l.owner == a

end Sys2Proof.Machine
end

