-- ==== Sys2Proof/Machine/Queue.lean ====
section
/-! DEFINITION. The pending queue (chapter Grants and the Pending Queue): tickets, order, the queue pass, removals, and the
grant decision. -/

namespace Sys2Proof.Machine

/-- The pending queue holds an anchored entry (R51, R61). -/
def Tables.anyAnchored (t : Tables) : Bool := t.queue.any PendingEntry.anchored

/-- The ticket after a ticket, from 255 to 1 (R56). -/
def nextTicket (n : Nat) : Nat := if 255 ≤ n then 1 else n + 1

/-- The counter's value if no entry bears it, otherwise the next that none bears (R56); a queue of 16 entries is got past in
16 advances. -/
def freeTicket (q : List PendingEntry) : Nat → Nat → Nat
  | 0, n => n
  | fuel + 1, n => if q.any (fun e => e.ticket == n) then freeTicket q fuel (nextTicket n) else n

/-- A new entry stands after every entry of the same or higher priority and before every entry of lower priority (R57). -/
def insertByPriority (e : PendingEntry) (q : List PendingEntry) : List PendingEntry :=
  q.takeWhile (fun x => e.priority ≤ x.priority) ++ e :: q.dropWhile (fun x => e.priority ≤ x.priority)

/-- The allocation choice, when it yields slots, with the lowest FREE lease entry: the request fits (R51). -/
def Tables.fits (t : Tables) (count : Nat) (contiguous : Bool) : Option (List Nat × Nat) :=
  match t.choice count contiguous, t.freeIndex? with
  | some slots, some i => some (slots, i)
  | _, _ => none

/-- What became of an entry in a queue pass (R58). -/
inductive Fate where
  | granted
  | removed
  | stayed
  | unvisited
deriving DecidableEq, Repr

/-- The visit of one entry: removed with REFUSED(QUOTA) when the station's held slots plus its count exceed its quota,
granted with a GRANTED notice when it fits, otherwise it stays (R58, R59). -/
def Tables.visit (t : Tables) (e : PendingEntry) : Tables × Fate :=
  let overQuota := match t.station? e.station with
    | none => true
    | some st => st.quota < st.held + e.count
  if overQuota then
    ((t.modifyStation e.station .dropQueued).post e.station (.refused e.ticket .quota), .removed)
  else
    match t.fits e.count e.contiguous with
    | none => (t, .stayed)
    | some (slots, i) =>
      let term := t.policy.clip (e.term.getD 0)
      let t' := (t.createLease i (.fresh e.station slots term e.idleLimit false)).modifyStation e.station .dropQueued
      (t'.post e.station (.granted e.ticket (t.handle i) slots term), .granted)

/-- The walk of a queue pass (R58): in queue order, ended by an anchored entry that stays. -/
def passWalk : List PendingEntry → Tables → Tables × List (PendingEntry × Fate)
  | [], t => (t, [])
  | e :: es, t =>
    match t.visit e with
    | (t', fate) =>
      if fate = .stayed ∧ e.anchored then (t', (e, .stayed) :: es.map fun x => (x, .unvisited))
      else
        let (t'', rest) := passWalk es t'
        (t'', (e, fate) :: rest)

/-- Pass-over counting (R60): the entries that are left, an entry that stayed raised by 1, up to 15, when an entry behind it
was granted; with whether any entry of the list was granted. -/
def passCount : List (PendingEntry × Fate) → List PendingEntry × Bool
  | [] => ([], false)
  | (e, fate) :: rest =>
    let (kept, granted) := passCount rest
    match fate with
    | .granted => (kept, true)
    | .removed => (kept, granted)
    | .stayed => ({ e with passed := if granted then min 15 (e.passed + 1) else e.passed } :: kept, granted)
    | .unvisited => (e :: kept, granted)

/-- An entry whose passed count is at or above ANCHOR_PASSES is anchored, and stays so (R60). -/
def PendingEntry.anchor (limit : Nat) (e : PendingEntry) : PendingEntry :=
  { e with anchored := e.anchored || limit ≤ e.passed }

/-- The queue pass (R58 to R60). -/
def Tables.queuePass (t : Tables) : Tables :=
  let (t', fates) := passWalk t.queue t
  { t' with queue := (passCount fates).1.map (PendingEntry.anchor t.policy.anchorPasses) }

/-- A queue pass that runs only when an anchored entry was removed (R62). -/
def Tables.passIf (t : Tables) (anchoredRemoved : Bool) : Tables :=
  if anchoredRemoved then t.queuePass else t

/-- Take an entry out of the queue, lowering its station's queued count (3.4). -/
def Tables.removeEntry (t : Tables) (ticket : Nat) (station : Nat) : Tables :=
  { t with queue := t.queue.filter fun e => e.ticket != ticket }.modifyStation station .dropQueued

/-- Remove every entry that a test picks, in queue order, each with a REFUSED notice to its station (R63, R66, R67). -/
def Tables.refuseEntries (t : Tables) (pick : PendingEntry → Bool) (reason : RefuseReason) : Tables :=
  (t.queue.filter pick).foldl
    (fun t e => (t.removeEntry e.ticket e.station).post e.station (.refused e.ticket reason)) t

/-- Remove a station's entries without notice (R65); its queued count becomes 0. -/
def Tables.dropEntriesOf (t : Tables) (a : Nat) : Tables :=
  { t with queue := t.queue.filter fun e => e.station != a }.modifyStation a fun st => { st with queued := 0 }

/-- A station's entries include an anchored one. -/
def Tables.anchoredOf (t : Tables) (a : Nat) : Bool :=
  t.queue.any fun e => e.station == a && e.anchored

/-- Queue a request (R53, R55 to R57): its ticket, its place, the counter and the station's queued count. -/
def Tables.enqueue (t : Tables) (a : Nat) (g : GrantAsk) : Tables × Nat :=
  let ticket := freeTicket t.queue t.queue.length t.ticket
  let e : PendingEntry :=
    { ticket := ticket, station := a, count := g.count, contiguous := g.contiguous, priority := g.priority,
      term := t.policy.clip g.term, idleLimit := g.idleLimit, wait := t.policy.queueWait, passed := 0,
      anchored := false }
  ({ t with queue := insertByPriority e t.queue, ticket := nextTicket ticket }.modifyStation a
    (fun st => { st with queued := st.queued + 1 }), ticket)

/-- The queue and the station's share of it have room (R53). -/
def Tables.queueRoom (t : Tables) (st : Station) : Bool :=
  t.queue.length < Config.queueMax && st.queued < Config.stationQueueMax

/-- The grant decision (R49 to R54) for a present station, with its answer (R103). -/
def Tables.grantDecision (t : Tables) (a : Nat) (st : Station) (g : GrantAsk) : Tables × Answer :=
  if st.quota < st.held + g.count then (t, ⟨.quota, []⟩)
  else
    let term := t.policy.clip g.term
    match t.fits g.count g.contiguous, t.anyAnchored with
    | some (slots, i), false =>
      (t.createLease i (.fresh a slots term g.idleLimit false),
        ⟨.ok, (t.handle i).bytes ++ slotListBytes slots ++ termBytes term⟩)
    | _, _ =>
      if t.possible g.count g.contiguous && g.wait then
        if t.queueRoom st then
          let (t', ticket) := t.enqueue a g
          (t', ⟨.wait, [byte ticket]⟩)
        else (t.raise .queueFull, ⟨.queueFull, []⟩)
      else if !g.wait && (t.choice g.count g.contiguous).isSome && !t.anyAnchored && t.freeIndex?.isNone then
        (t.raise .tableFull, ⟨.tableFull, []⟩)
      else (t, ⟨.noRoom, [byte t.grantableSlots]⟩)

end Sys2Proof.Machine
end

