-- ==== Sys2Proof/Machine/Stations.lean ====
section
/-! DEFINITION. The station table (chapter The Station Table): joining, liveness, removal, acknowledgment of notices. -/

namespace Sys2Proof.Machine

/-! ### Joining -/

/-- The OK response to a JOIN, with the quota the station now has (R101). -/
def joinOk (quota : Nat) : List Byte := Answer.body 0x01 ⟨.ok, [byte quota]⟩

/-- The entry a first join makes (R73, R76). -/
def Station.first (quota : Nat) (tag : BitVec 32) (seq : BitVec 4) : Station where
  live := .joined
  tag := tag
  quota := quota
  held := 0
  leaseCount := 0
  queued := 0
  misses := 0
  lastSeq := seq
  lastResponse := joinOk quota
  nextNotice := 0
  notices := []
  overflow := false

/-- The entry after a rejoin, but for its pending entries (R78). -/
def Station.rejoined (seq : BitVec 4) (st : Station) : Station :=
  { st with live := .joined, misses := 0, notices := [], overflow := true, lastSeq := seq,
            lastResponse := joinOk st.quota }

/-- The end notice number is removed from an ENDING lease of a station (R31). -/
def Lease.forgetNotice (a : Nat) (l : Lease) : Lease :=
  if l.owner = a then
    match l.phase with
    | .active => l
    | .ending reason deadline _ => { l with phase := .ending reason deadline none }
  else l

/-- A change of the lease in every entry that holds one. -/
def Tables.mapLeases (t : Tables) (f : Lease → Lease) : Tables :=
  { t with leases := t.leases.map fun e => { e with lease := e.lease.map f } }

/-- The first join (R76). -/
def Tables.firstJoin (t : Tables) (a : Nat) (tag : BitVec 32) (seq : BitVec 4) : Tables :=
  t.setStation a (some (.first t.policy.defaultQuota tag seq))

/-- The rejoin (R78), with the queue pass that follows when an entry removed was anchored (R65). -/
def Tables.rejoin (t : Tables) (a : Nat) (seq : BitVec 4) : Tables :=
  (((t.dropEntriesOf a).modifyStation a (.rejoined seq)).mapLeases (.forgetNotice a)).passIf (t.anchoredOf a)

/-! ### Liveness -/

/-- A valid reply: miss count 0, JOINED, timer stopped (R80). -/
def Station.alive (st : Station) : Station := { st with live := .joined, misses := 0 }

/-- A miss (R82): the count rises by 1, up to 15; at MISS_LIMIT a JOINED station becomes SILENT with its timer started. -/
def Station.miss (limit silentLimit : Nat) (st : Station) : Station :=
  let misses := min 15 (st.misses + 1)
  match st.live with
  | .silent _ => { st with misses := misses }
  | .joined => { st with misses := misses, live := if limit ≤ misses then .silent silentLimit else .joined }

/-- A miss report taken (R81, R82); one for an absent address changes nothing. -/
def Tables.miss (t : Tables) (a : Nat) : Tables :=
  t.modifyStation a (.miss t.policy.missLimit t.policy.silentLimit)

/-- The station is present and SILENT. -/
def Tables.isSilent (t : Tables) (a : Nat) : Bool := (t.station? a).any fun st => st.live.isSilent

/-- One millisecond of a station's silence timer, which runs only while SILENT and stops at 0 (R84). -/
def Station.tickMs (st : Station) : Station :=
  match st.live with
  | .joined => st
  | .silent ms => { st with live := .silent (ms - 1) }

/-- The silence timer of a station runs out with the next millisecond (R84). -/
def Tables.runsOut (t : Tables) (a : Nat) : Bool :=
  (t.station? a).any fun st => st.live == .silent 1

/-! ### Removal -/

/-- What the removal of its owner does to one lease (R39): an ACTIVE pinned lease passes to the house, every other is
retired. -/
def Tables.loseLease (t : Tables) (reason : RetireReason) (i : Nat) : Tables :=
  match t.lease? i with
  | none => t
  | some l =>
    if l.pinned && !l.isEnding then t.setLease i { l with owner := Config.house }
    else t.retire i l reason false

/-- A station is taken out of a listener list; the addresses after it close up (R45, R46). -/
def Lease.dropListener (a : Nat) (l : Lease) : Lease :=
  { l with listeners := l.listeners.filter fun x => x != a }

/-- The removal of a station in its six steps (R85), for the reason OWNER_LOST or OWNER_LEFT. -/
def Tables.removeStation (t : Tables) (a : Nat) (reason : RetireReason) : Tables :=
  let t1 := (t.ownedBy a).foldl (fun t i => t.loseLease reason i) t
  let t2 := t1.mapLeases (.dropListener a)
  let t3 := t2.dropEntriesOf a
  (t3.setStation a none).passIf (t2.anchoredOf a)

/-- A silence expiry taken (R84, R86): a SILENT station is removed and STATION_LOST raised; otherwise it is discarded. -/
def Tables.silenceExpiry (t : Tables) (a : Nat) : Tables :=
  if t.isSilent a then (t.removeStation a .ownerLost).raise .stationLost else t

/-! ### Acknowledgment -/

/-- What the removal of an acknowledged notice does further (R31, R124): an ENDING notice retires the lease it names, when
that lease is ENDING with that epoch, owned by the station, and records the notice's number. -/
def Tables.afterAck (t : Tables) (a : Nat) (n : Notice) : Tables :=
  match n.content with
  | .ending h _ _ =>
    match t.validLease? h with
    | none => t
    | some l =>
      match l.phase with
      | .ending reason _ (some number) =>
        if l.owner = a ∧ number = n.number then t.retire h.index l reason.retire false else t
      | _ => t
  | _ => t

/-- The acknowledgment stage (R25, R123): the oldest notice is removed when the field holds its number. -/
def Tables.acknowledge (t : Tables) (a : Nat) (ack : Option Byte) : Tables :=
  match t.station? a, ack with
  | some st, some number =>
    match st.notices with
    | [] => t
    | n :: rest =>
      if n.number = number then (t.setStation a (some { st with notices := rest })).afterAck a n else t
  | _, _ => t

end Sys2Proof.Machine
end

