-- ==== Sys2Proof/Machine/Close.lean ====
section
/-! DEFINITION. The period close in its eight stages (R26), and the snapshot it hands over (R164, R165). -/

namespace Sys2Proof.Machine

/-! ### Stage 1, the audit (R9 to R11) -/

/-- The finding of the report for a slot (R160). -/
def findingOf (report : List Finding) (n : Nat) : Finding := (nth? report n).getD .quiet

/-- Last activity takes the finding (R9). -/
def Tables.setActivity (t : Tables) (n : Nat) (f : Finding) : Tables :=
  match t.slot n with
  | .outside => t
  | .inArea st _ => t.setSlot n (.inArea st f)

/-- What a finding does to a slot by its state (R9 to R11). -/
def Tables.actOn (t : Tables) (n : Nat) (f : Finding) : Tables :=
  match t.slotState? n, f with
  | some (.free _), .active => (t.setSlotState n (.free true)).raise .trespass
  | some (.free _), .quiet => t.setSlotState n (.free false)
  | some (.cooling _ linger), .active =>
    if t.policy.lingerLimit ≤ linger + 1 then (t.setSlotState n (.barred .linger)).raise .linger
    else t.setSlotState n (.cooling t.policy.coolPeriods (linger + 1))
  | _, _ => t

/-- The audit of one slot (R9). -/
def Tables.auditSlot (report : List Finding) (t : Tables) (n : Nat) : Tables :=
  (t.setActivity n (findingOf report n)).actOn n (findingOf report n)

/-- Stage 1: every slot from 1 to SA (R9). -/
def Tables.audit (t : Tables) (report : List Finding) : Tables :=
  t.area.foldl (Tables.auditSlot report) t

/-! ### Stages 2 to 4, the leases (R41, R42, R32) -/

/-- The slot's last audit found it active. -/
def Tables.wasActive (t : Tables) (n : Nat) : Bool :=
  match t.slot n with
  | .outside => false
  | .inArea _ last => last == .active

/-- Idle evaluation of one lease (R41). -/
def Tables.idleLease (t : Tables) (i : Nat) : Tables :=
  match t.lease? i with
  | none => t
  | some l =>
    if l.isEnding || l.pinned then t
    else if l.slots.any t.wasActive then t.setLease i { l with idleCount := 0 }
    else
      let l' := { l with idleCount := min 255 (l.idleCount + 1) }
      if 0 < l'.idleLimit ∧ l'.idleLimit ≤ l'.idleCount then t.enterEnding i l' .idle
      else t.setLease i l'

/-- The countdown of one lease's term, its expiry and its warning (R42). -/
def Tables.termLease (t : Tables) (i : Nat) : Tables :=
  match t.lease? i with
  | none => t
  | some l =>
    if l.isEnding || l.pinned then t
    else
      match l.term with
      | .openEnded => t
      | .periods term remaining =>
        let r := remaining - 1
        let l' := { l with term := .periods term r }
        if r = 0 then t.enterEnding i l' .expired
        else if r ≤ t.policy.warnPeriods ∧ l.warned = false then
          (t.setLease i { l' with warned := true }).post l.owner (.warn (t.handle i) r)
        else t.setLease i l'

/-- The countdown of one ENDING lease's deadline, and its retirement at 0 (R32). -/
def Tables.deadlineLease (t : Tables) (i : Nat) : Tables :=
  match t.lease? i with
  | none => t
  | some l =>
    match l.phase with
    | .active => t
    | .ending reason deadline notice =>
      if deadline - 1 = 0 then t.retire i l reason.retire false
      else t.setLease i { l with phase := .ending reason (deadline - 1) notice }

/-- The leases that are ENDING, ascending. -/
def Tables.endingLeases (t : Tables) : List Nat :=
  leaseIndices.filter fun i => (t.lease? i).any Lease.isEnding

/-! ### Stage 5, the cooling counts (R12) -/

/-- The countdown of one COOLING slot, which becomes FREE at 0 (R12). -/
def Tables.coolSlot (t : Tables) (n : Nat) : Tables :=
  match t.slotState? n with
  | some (.cooling cool linger) =>
    if cool - 1 = 0 then t.setSlotState n (.free false)
    else t.setSlotState n (.cooling (cool - 1) linger)
  | _ => t

/-- The slot is COOLING. -/
def Tables.isCooling (t : Tables) (n : Nat) : Bool :=
  match t.slotState? n with
  | some (.cooling _ _) => true
  | _ => false

/-- The slots that stage 5 counts: COOLING when stage 1 runs, with a quiet finding (R12). -/
def Tables.coolingQuiet (t : Tables) (report : List Finding) : List Nat :=
  t.area.filter fun n => t.isCooling n && findingOf report n == .quiet

/-! ### Stages 6 and 7, the queue (R63, R58) -/

/-- One period of an entry's wait (R63). -/
def PendingEntry.waitDown (e : PendingEntry) : PendingEntry := { e with wait := e.wait - 1 }

/-- The queue with its entries changed one by one. -/
def Tables.mapQueue (t : Tables) (f : PendingEntry → PendingEntry) : Tables := { t with queue := t.queue.map f }

/-- Every wait remaining is reduced by 1, and the entries whose wait reaches 0 are refused TIMEOUT (R63). -/
def Tables.queueWaits (t : Tables) : Tables :=
  (t.mapQueue .waitDown).refuseEntries (fun e => e.wait == 0) .timeout

/-! ### Stage 8, the snapshot (R164, R165) -/

/-- A beacon entry (12.3). -/
def SlotView.bytes : SlotView → List Byte
  | .outside => [0, 0]
  | .free mark => [1, if mark then 0x80 else 0]
  | .leased i owner => [0x80 ||| byte i, byte owner]
  | .ending i owner => [0xC0 ||| byte i, byte owner]
  | .cooling => [4, 0]
  | .barred => [5, 0]

/-- The snapshot: marker, map epoch, SA, the 63 entries, CRC (R165, 12.3). -/
def snapshot (epoch : BitVec 16) (image : MapImage) : List Byte :=
  withCrc ([0xA5] ++ word epoch.toNat ++ [byte image.area] ++ (image.entries.map SlotView.bytes).flatten)

/-- The change note (R19, R164): the slots whose beacon entry differs from the reference image. The note the part keeps names
the entries that may differ; it is held here as a view of the map and the reference image (log entry 11). -/
def Tables.changeNote (t : Tables) : List Nat := slotNumbers.filter fun n => nth? t.reference.entries n != some (t.view n)

/-- The map epoch rises by 1 when the map differs from the reference image, which then becomes the map (R164). -/
def Tables.settleEpoch (t : Tables) : Tables :=
  { t with
    mapEpoch := if t.image = t.reference then t.mapEpoch else t.mapEpoch + 1
    reference := t.image }

/-- The snapshot of the tables once the epoch is settled (R165). -/
def Tables.snapshotBytes (t : Tables) : List Byte := snapshot t.mapEpoch t.reference

/-! ### The close -/

/-- Stages 1 and 2 (R26): the audit, then idle evaluation of the leases in ascending order. -/
def Tables.auditAndIdle (t : Tables) (report : List Finding) : Tables := leaseIndices.foldl Tables.idleLease (t.audit report)

/-- Stages 1 to 7 (R26): the leases already ENDING, and the slots COOLING when stage 1 runs, are those of the tables the
close was taken with. -/
def Tables.closeStages (t : Tables) (report : List Finding) : Tables :=
  let s3 := leaseIndices.foldl Tables.termLease (t.auditAndIdle report)
  let s4 := t.endingLeases.foldl Tables.deadlineLease s3
  let s5 := (t.coolingQuiet report).foldl Tables.coolSlot s4
  s5.queueWaits.queuePass

/-- The period close on the tables (R26): the eight stages. -/
def Tables.periodClose (t : Tables) (report : List Finding) : Tables := (t.closeStages report).settleEpoch

/-! ### What runs out in a close -/

/-- Stage 3 takes the remaining term of the lease to 0 (R42). -/
def Lease.termRunsOut (l : Lease) : Bool :=
  !l.isEnding && !l.pinned && l.term.remaining?.any (· ≤ 1)

/-- Stage 4 takes the end deadline of the lease to 0 (R32). -/
def Lease.deadlineRunsOut (l : Lease) : Bool :=
  match l.phase with
  | .active => false
  | .ending _ deadline _ => deadline ≤ 1

/-- Stage 5 takes the cool count of the slot to 0 (R12). -/
def SlotState.coolRunsOut : SlotState → Bool
  | .cooling cool _ => cool ≤ 1
  | _ => false

/-- The leases whose term runs out in the close that takes a report: ACTIVE, unpinned, of a limited term, as stage 2 leaves
them (R42). -/
def Tables.termsRunningOut (t : Tables) (report : List Finding) : List Nat :=
  leaseIndices.filter fun i => ((t.auditAndIdle report).lease? i).any Lease.termRunsOut

/-- The leases ENDING before the close whose deadline runs out in it (R32). -/
def Tables.deadlinesRunningOut (t : Tables) : List Nat :=
  t.endingLeases.filter fun i => (t.lease? i).any Lease.deadlineRunsOut

/-- The slots COOLING before the close and found quiet whose cool count runs out in it (R12). -/
def Tables.coolsRunningOut (t : Tables) (report : List Finding) : List Nat :=
  (t.coolingQuiet report).filter fun n => (t.slotState? n).any SlotState.coolRunsOut

/-- The tickets of the entries whose wait runs out in the close (R63). -/
def Tables.waitsRunningOut (t : Tables) : List Nat := (t.queue.filter fun e => e.wait ≤ 1).map PendingEntry.ticket

end Sys2Proof.Machine
end

