-- ==== Sys2Proof/Machine/Line.lean ====
section
/-! DEFINITION. The Request Line Controller: the poll schedule and the exchange (chapter The Request Line). -/

namespace Sys2Proof.Machine

/-! ### The pins of the line (R130) -/

/-- The bits of a character at the place of bit 0 to 9: a start bit (space), 8 data bits least significant first, a stop bit
(mark); true is mark (R130). -/
def charBit (b : Byte) (place : Nat) : Bool :=
  if place = 0 then false else if place ≤ 8 then b.getLsbD (place - 1) else true

/-- The bit times of a frame gone by when some are left: 1 bit is 1 µs (R130). -/
def sentBits (frame : List Byte) (left : Nat) : Nat := Config.charTime * frame.length - left

/-- The character of a frame that is being sent, if one is. -/
def charUnderWay (frame : List Byte) (left : Nat) : Option Byte := frame[sentBits frame left / Config.charTime]?

/-- The level on RL_TX while a frame is sent, its characters without a gap (R130, R131). -/
def lineLevel (frame : List Byte) (left : Nat) : Bool :=
  match charUnderWay frame left with
  | none => true
  | some b => charBit b (sentBits frame left % Config.charTime)

/-- What is being sent: the bytes, and the time left to the end of the last stop bit. -/
def Exchange.sending? : Exchange → Option (List Byte × Nat)
  | .sendPoll _ frame _ left => some (frame, left)
  | .sendResponse frame left => some (frame, left)
  | .finishChar c left => some ([c], left)
  | _ => none

/-- RL_DE is asserted from the first start bit of what is sent to its last stop bit (R130, R136, R139, R146). -/
def State.rlDe (s : State) : Bool := s.line.exchange.sending?.isSome

/-- The level of RL_TX, true for mark: the bits of what is sent, and mark at rest (R130, R147). -/
def State.rlTx (s : State) : Bool :=
  match s.line.exchange.sending? with
  | some (frame, left) => lineLevel frame left
  | none => true

/-! ### The schedule (R140 to R142) -/

/-- A station is eligible: JOINED, or SILENT in a round with counter 0 (R140). -/
def Tables.eligible (t : Tables) (round : BitVec 2) (a : Nat) : Bool :=
  (t.station? a).any fun st => !st.live.isSilent || round == 0

/-- The lowest eligible address above the last address (R140). -/
def Tables.nextEligible (t : Tables) (c : Schedule) : Option Nat :=
  addresses.find? fun a => c.last < a && t.eligible c.round a

/-- The end of a round (R141). -/
def Schedule.endRound (c : Schedule) : Schedule :=
  { c with round := c.round + 1, last := 0, opens := c.opens + 1 }

/-- The next poll, 0 for an open poll, and the schedule after the choice (R140, R141). After JOIN_EVERY round ends without a
station to poll an open poll is due, so JOIN_EVERY + 1 rounds are enough. -/
def Tables.chooseIn (t : Tables) : Nat → Schedule → Nat × Schedule
  | 0, c => (0, { c with opens := 0 })
  | rounds + 1, c =>
    match t.nextEligible c with
    | some a => (a, { c with last := a })
    | none =>
      if t.policy.joinEvery ≤ c.endRound.opens then (0, { c.endRound with opens := 0 })
      else t.chooseIn rounds c.endRound

/-- The choice of the next poll; after a reset it is an open poll (R146, R147). -/
def Tables.choosePoll (t : Tables) (c : Schedule) : Nat × Schedule :=
  if c.openDue then (0, { c with openDue := false }) else t.chooseIn (t.policy.joinEvery + 1) c

/-- The frame of a poll (R121, R143). -/
def Tables.pollBytes (t : Tables) (a : Nat) : List Byte :=
  match t.station? a with
  | none => openPollFrame
  | some st => pollFrame a st

/-- The schedule after a reset: counts 0, the first poll an open poll (R146, R147). -/
def Schedule.restart : Schedule := ⟨0, 0, 0, true⟩

/-! ### The exchange (R134 to R139) -/

/-- A new exchange state. -/
def State.setExchange (s : State) (x : Exchange) : State := { s with line := { s.line with exchange := x } }

/-- The station reply or miss report waiting at the arbiter. -/
def State.setStationOp (s : State) (op : Option StationOp) : State :=
  { s with arbiter := { s.arbiter with station := op } }

/-- Leaving GAP (R135, R136): the poll is chosen, built with REPLY_WINDOW as it stands, and its sending begins. -/
def State.sendPoll (s : State) : State :=
  let (a, c) := s.te.choosePoll s.line.schedule
  let frame := s.te.pollBytes a
  { s with line := ⟨.sendPoll a frame s.te.policy.replyWindow (Config.charTime * frame.length), c⟩ }

/-- The exchange ends without a valid reply: GAP, and a miss report after a poll addressed to a station (R137, R138). -/
def State.missed (s : State) (destination : Nat) : State :=
  let s' := s.setExchange (.gap 0)
  if destination = 0 then s' else s'.setStationOp (some (.miss destination))

/-- GAP is complete (R134, R135): the next poll is sent when every operation handed over has been completed. -/
def State.gapComplete (s : State) : State :=
  match s.line.exchange, s.arbiter.station with
  | .gap _, none => s.sendPoll
  | _, _ => s

/-- The last stop bit of the poll (R136). -/
def State.pollSent (s : State) : State :=
  match s.line.exchange with
  | .sendPoll a _ window _ => s.setExchange (.awaitReply a window)
  | _ => s

/-- A start bit on RL_RX (R134, R137): only in AWAIT_REPLY does it begin a frame. -/
def State.startBit (s : State) : State :=
  match s.line.exchange with
  | .awaitReply a _ => s.setExchange (.receiving a)
  | _ => s

/-- The reply window runs out (R137). -/
def State.windowExpiry (s : State) : State :=
  match s.line.exchange with
  | .awaitReply a _ => s.missed a
  | _ => s

/-- The end of the frame is recognised (R138): a valid reply or candidate join is handed over, anything else is a miss after
a station poll and is discarded after an open poll. -/
def State.frameEnd (s : State) (chars : List RxChar) : State :=
  match s.line.exchange with
  | .receiving a =>
    match validReply a chars with
    | some f => (s.setExchange (.waitEngine a)).setStationOp (some (.reply f (a == 0)))
    | none => s.missed a
  | _ => s

/-- The start bit of a 33rd character ends reception with the frame corrupt (R132, R138). -/
def State.tooLong (s : State) : State :=
  match s.line.exchange with
  | .receiving a => s.missed a
  | _ => s

/-- The last stop bit of the response (R139). -/
def State.responseSent (s : State) : State :=
  match s.line.exchange with
  | .sendResponse _ _ => s.setExchange (.gap 0)
  | _ => s

/-- The Table Engine has completed the reply (R139): in WAIT_ENGINE its response is sent, or GAP is entered when there is
none; after an abandoned exchange it is discarded (R146). -/
def State.answerReply (s : State) (f : ReplyFrame) (body : Option (List Byte)) : State :=
  match s.line.exchange, body with
  | .waitEngine _, some b =>
    s.setExchange (.sendResponse (responseFrame f.source f.seq b)
      (Config.charTime * (responseFrame f.source f.seq b).length))
  | .waitEngine _, none => s.setExchange (.gap 0)
  | _, _ => s

/-- The sending of a frame ends with the character being sent (R146). -/
def finishSending (frame : List Byte) (left : Nat) : Exchange :=
  match charUnderWay frame left with
  | none => .gap 0
  | some b => .finishChar b (Config.charTime - sentBits frame left % Config.charTime)

/-- What is left of an exchange that is abandoned (R146): a character being sent is finished before GAP, everything else is
dropped at once. -/
def Exchange.abandoned : Exchange → Exchange
  | .gap elapsed => .gap elapsed
  | .sendPoll _ frame _ left => finishSending frame left
  | .sendResponse frame left => finishSending frame left
  | .finishChar c left => .finishChar c left
  | _ => .gap 0

/-- A soft reset abandons the exchange in flight and restarts the schedule (R146). -/
def State.abandonExchange (s : State) : State := { s with line := ⟨s.line.exchange.abandoned, .restart⟩ }

end Sys2Proof.Machine
end

