-- ==== Sys2Proof/Machine/Management.lean ====
section
/-! DEFINITION. The management commands (chapter The Management Port) with the effects their own chapters give them. -/

namespace Sys2Proof.Machine

/-- The state of the tables after a command, its result code, and its response body (R176). -/
structure CmdOutcome where
  tables : Tables
  result : CmdResult
  body : List Byte
deriving DecidableEq, Repr

/-- A refusal: nothing changes, the body is empty (R177). -/
def Tables.refuse (t : Tables) (r : CmdResult) : CmdOutcome := ⟨t, r, []⟩

/-- OK with a body that reports and a table store that is as it was (R178). -/
def Tables.report (t : Tables) (body : List Byte) : CmdOutcome := ⟨t, .ok, body⟩

/-! ### Reading records (R178, R179, R182) -/

/-- Last activity in the flags byte of READ_SLOT (12.4): bit 1 active, bit 2 present. -/
def activityFlags : Finding → Byte
  | .quiet => 0x04
  | .active => 0x06

/-- The body of READ_SLOT (R178, 12.4). -/
def Slot.bytes : Slot → List Byte
  | .outside => [0, 0, 0, 0, 0, 0]
  | .inArea (.free mark) last => [1, 0, 0, 0, 0, activityFlags last ||| boolByte mark]
  | .inArea (.leased i) last => [2, byte i, 0, 0, 0, activityFlags last]
  | .inArea (.cooling cool linger) last => [4, 0, byte cool, byte linger, 0, activityFlags last]
  | .inArea (.barred reason) last => [5, 0, 0, 0, reason.code, activityFlags last]

/-- End reason, end deadline and end notice number (12.4). -/
def Phase.endBytes : Phase → List Byte
  | .active => [0, 0, 0]
  | .ending reason deadline notice => [reason.code, byte deadline, notice.getD 0]

/-- ACTIVE 1, ENDING 2 (12.4). -/
def Phase.code : Phase → Byte
  | .active => 1
  | .ending _ _ _ => 2

/-- The ENDING notice was queued (12.4: end notice number present). -/
def Phase.noticed : Phase → Bool
  | .active => false
  | .ending _ _ notice => notice.isSome

/-- The flags byte of READ_LEASE (12.4). -/
def Lease.flagByte (l : Lease) : Byte :=
  flagBit l.warned 0 ||| flagBit l.pinned 1 ||| flagBit l.term.remaining?.isSome 2 ||| flagBit l.phase.noticed 3

/-- The body of READ_LEASE (R178, 12.4). -/
def LeaseEntry.bytes (e : LeaseEntry) : List Byte :=
  match e.lease with
  | none => [0, byte e.epoch.toNat]
  | some l =>
    [l.phase.code, byte e.epoch.toNat, byte l.owner] ++ slotListBytes l.slots ++ termBytes l.term.term? ++
      word (l.term.remaining?.getD 0) ++ [l.flagByte, byte l.idleLimit, byte l.idleCount, byte l.listeners.length] ++
      (l.listeners.map byte ++ List.replicate 4 0).take 4 ++ l.phase.endBytes

/-- JOINED 1, SILENT 2 (12.4). -/
def Liveness.code : Liveness → Byte
  | .joined => 1
  | .silent _ => 2

/-- The time left on the silence timer in ms, FFFFh when it is not running (12.4). -/
def Liveness.timerBytes : Liveness → List Byte
  | .joined => [0xFF, 0xFF]
  | .silent ms => word ms

/-- Part 0 of READ_STATION (R179, 12.4). -/
def Station.bytes (st : Station) : List Byte :=
  [st.live.code] ++ tagBytes st.tag ++
    [byte st.quota, byte st.held, byte st.leaseCount, byte st.queued, byte st.misses] ++ st.live.timerBytes ++
    [st.lastSeq.setWidth 8, st.nextNotice, byte st.notices.length, boolByte st.overflow]

/-- A part of READ_STATION (R179): the entry, a notice by its position, or the stored response. -/
def Station.partBytes (st : Station) (part : Nat) : List Byte :=
  if part = 0 then st.bytes
  else if part = 5 then byte st.lastResponse.length :: st.lastResponse
  else
    match st.notices[part - 1]? with
    | none => [0]
    | some n => n.bytes

/-- READ_STATION (R179). -/
def Tables.readStation (t : Tables) (a part : Nat) : CmdOutcome :=
  match t.station? a with
  | none => t.refuse .noStation
  | some st => t.report (st.partBytes part)

/-- A pending entry in READ_QUEUE (R55, 12.4). -/
def PendingEntry.bytes (e : PendingEntry) : List Byte :=
  [byte e.ticket, byte e.station, byte e.count, flagBit e.contiguous 0 ||| flagBit e.anchored 1, byte e.priority] ++
    termBytes e.term ++ [byte e.idleLimit, byte e.wait, byte e.passed]

/-- READ_QUEUE (R178): the depth and the entry at the position, whose fields are sent as zero when it is empty (12.4; log
entry 9). -/
def Tables.readQueue (t : Tables) (position : Nat) : CmdOutcome :=
  t.report (byte t.queue.length ::
    match t.queue[position]? with
    | none => List.replicate 10 0
    | some e => e.bytes)

/-- The sync state codes (12.4). -/
def Sync.code : Sync → Byte
  | .unlocked => 0
  | .confirming _ _ => 1
  | .locked _ _ => 2
  | .slipping _ _ _ => 3

/-- READ_COUNTS (R178), with the sync state the Trunk Monitor holds. -/
def Tables.readCounts (t : Tables) (sync : Sync) : CmdOutcome :=
  t.report
    ([byte (leaseIndices.filter fun i => (t.lease? i).isSome).length, byte t.freeSlots, byte t.grantableSlots,
      byte t.policy.streamArea, byte t.queue.length,
      byte (addresses.filter fun a => (t.station? a).isSome).length, sync.code] ++ word t.mapEpoch.toNat)

/-- A policy value by its id (R182). -/
def Policy.value (p : Policy) : Nat → Nat
  | 1 => p.streamArea
  | 2 => p.coolPeriods
  | 3 => p.endPeriods
  | 4 => p.warnPeriods
  | 5 => p.activeThreshold
  | 6 => p.idleCode.toNat
  | 7 => p.defaultQuota
  | 8 => p.maxTerm
  | 9 => if p.openTerm then 1 else 0
  | 10 => p.queueWait
  | 11 => p.replyWindow
  | 12 => p.missLimit
  | 13 => p.silentLimit
  | 14 => p.joinEvery
  | 15 => p.lingerLimit
  | 16 => p.anchorPasses
  | _ => 0

/-- READ_POLICY (R182). -/
def Tables.readPolicy (t : Tables) (id : Nat) : CmdOutcome :=
  t.report (byte id :: word (t.policy.value id))

/-! ### Policy values and quotas -/

/-- A policy value stored (R182); id 1 is changed by RESIZE alone. -/
def Policy.store (p : Policy) (v : Nat) : Nat → Policy
  | 2 => { p with coolPeriods := v }
  | 3 => { p with endPeriods := v }
  | 4 => { p with warnPeriods := v }
  | 5 => { p with activeThreshold := v }
  | 6 => { p with idleCode := byte v }
  | 7 => { p with defaultQuota := v }
  | 8 => { p with maxTerm := v }
  | 9 => { p with openTerm := v == 1 }
  | 10 => { p with queueWait := v }
  | 11 => { p with replyWindow := v }
  | 12 => { p with missLimit := v }
  | 13 => { p with silentLimit := v }
  | 14 => { p with joinEvery := v }
  | 15 => { p with lingerLimit := v }
  | 16 => { p with anchorPasses := v }
  | _ => p

/-- The slot lingers at or above a limit. -/
def Slot.lingersAt (limit : Nat) : Slot → Bool
  | .inArea (.cooling _ linger) _ => limit ≤ linger
  | _ => false

/-- A slot at or above a LINGER_LIMIT becomes BARRED(LINGER) (R13). -/
def Slot.barLingering (limit : Nat) (v : Slot) : Slot :=
  match v with
  | .inArea (.cooling cool linger) last =>
    if limit ≤ linger then .inArea (.barred .linger) last else .inArea (.cooling cool linger) last
  | v => v

/-- A change of LINGER_LIMIT applied to the slots already COOLING, with the LINGER alarm when it bars one (R13). -/
def Tables.applyLingerLimit (t : Tables) (limit : Nat) : Tables :=
  let t' := { t with slots := t.slots.map (Slot.barLingering limit) }
  if t.slots.any (Slot.lingersAt limit) then t'.raise .linger else t'

/-- SET_POLICY (R182): id 1 is refused NOT_ALLOWED; a change of LINGER_LIMIT applies at once (R13). -/
def Tables.setPolicy (t : Tables) (id v : Nat) : CmdOutcome :=
  if id = 1 then t.refuse .notAllowed
  else
    let t' := { t with policy := t.policy.store v id }
    ⟨if id = 15 then t'.applyLingerLimit v else t', .ok, []⟩

/-- SET_QUOTA (R68, R89). -/
def Tables.setQuota (t : Tables) (a quota : Nat) : CmdOutcome :=
  match t.station? a with
  | none => t.refuse .noStation
  | some st => ⟨(t.setStation a (some { st with quota := quota })).queuePass, .ok, []⟩

/-! ### Leases -/

/-- HOUSE_GRANT (R180): SLOT_IN_USE, TABLE_FULL with its alarm, or the house lease of R29. -/
def Tables.houseGrant (t : Tables) (slots : List Nat) (term : Nat) (pinned : Bool) : CmdOutcome :=
  if slots.all t.isFree then
    match t.freeIndex? with
    | none => (t.raise .tableFull).refuse .tableFull
    | some i =>
      let granted := if term = 0 then none else some term
      ⟨t.createLease i (.fresh Config.house slots granted 0 pinned), .ok,
        (t.handle i).bytes ++ slotListBytes slots ++ termBytes granted⟩
  else t.refuse .slotInUse

/-- PIN (R43, R181). -/
def Tables.pin (t : Tables) (h : Handle) (on : Bool) : CmdOutcome :=
  match t.validLease? h with
  | none => t.refuse .staleHandle
  | some l =>
    if l.isEnding then t.refuse .notAllowed
    else if l.pinned = on then ⟨t, .ok, h.bytes ++ [boolByte on]⟩
    else ⟨t.setLease h.index { l with pinned := on, idleCount := 0 }, .ok, h.bytes ++ [boolByte on]⟩

/-- A soft REVOKE of a lease (R35): an ACTIVE one loses its pin and enters ENDING(REVOKED); an ENDING one takes the reason
REVOKED, keeping its deadline and its end notice number. -/
def Tables.revokeSoftly (t : Tables) (i : Nat) (l : Lease) : Tables :=
  match l.phase with
  | .active => t.enterEnding i { l with pinned := false } .revoked
  | .ending _ deadline notice => t.setLease i { l with phase := .ending .revoked deadline notice }

/-- REVOKE (R35, R36, R181). -/
def Tables.revoke (t : Tables) (h : Handle) (immediate : Bool) : CmdOutcome :=
  match t.validLease? h with
  | none => t.refuse .staleHandle
  | some l =>
    if immediate then ⟨t.retire h.index l .revoked true, .ok, h.bytes ++ [0, 0]⟩
    else ⟨t.revokeSoftly h.index l, .ok, h.bytes ++ [2, EndReason.revoked.code]⟩

/-- The retirement of the lease in an entry with reason CLEARED (R40). -/
def Tables.clearLease (t : Tables) (i : Nat) : Tables :=
  match t.lease? i with
  | none => t
  | some l => t.retire i l .cleared true

/-- CLEAR_LEASES (R40, R66). -/
def Tables.clearLeases (t : Tables) : CmdOutcome :=
  ⟨(leaseIndices.foldl Tables.clearLease t).refuseEntries (fun _ => true) .cleared, .ok, []⟩

/-! ### Slots -/

/-- BAR (R14). -/
def Tables.bar (t : Tables) (n : Nat) : CmdOutcome :=
  match t.slotState? n with
  | none => t.refuse .badValue
  | some (.leased _) => t.refuse .slotInUse
  | some (.barred _) => ⟨t, .ok, []⟩
  | some (.free _) => ⟨t.setSlotState n (.barred .manager), .ok, []⟩
  | some (.cooling _ _) => ⟨t.setSlotState n (.barred .manager), .ok, []⟩

/-- UNBAR (R15). -/
def Tables.unbar (t : Tables) (n : Nat) : CmdOutcome :=
  match t.slotState? n with
  | none => t.refuse .badValue
  | some (.barred _) => ⟨(t.setSlotState n (.free false)).queuePass, .ok, []⟩
  | some _ => t.refuse .notAllowed

/-- The slot stops a shrink: LEASED or COOLING (R17). -/
def Slot.stopsShrink : Slot → Bool
  | .inArea (.leased _) _ => true
  | .inArea (.cooling _ _) _ => true
  | _ => false

/-- SA takes a new value (R16). -/
def Tables.setArea (t : Tables) (area : Nat) : Tables :=
  { t with policy := { t.policy with streamArea := area } }

/-- Several slot records take one value. -/
def Tables.setSlots (t : Tables) (ns : List Nat) (v : Slot) : Tables :=
  ns.foldl (fun t n => t.setSlot n v) t

/-- The slots above one bound up to another. -/
def slotsBetween (low high : Nat) : List Nat := List.range' (low + 1) (high - low)

/-- A shrink (R17, R67): refused AREA_IN_USE, or the slots above the new SA become OUTSIDE and the entries that are no
longer possible are refused NO_ROOM; no pass. -/
def Tables.shrink (t : Tables) (area : Nat) : CmdOutcome :=
  if (slotsBetween area t.policy.streamArea).any fun n => (t.slot n).stopsShrink then t.refuse .areaInUse
  else
    let t' := (t.setSlots (slotsBetween area t.policy.streamArea) .outside).setArea area
    ⟨t'.refuseEntries (fun e => !t'.possible e.count e.contiguous) .noRoom, .ok, []⟩

/-- A grow (R18): the slots taken in become FREE, unmarked and quiet, then a queue pass runs. -/
def Tables.grow (t : Tables) (area : Nat) : CmdOutcome :=
  ⟨((t.setSlots (slotsBetween t.policy.streamArea area) (.inArea (.free false) .quiet)).setArea area).queuePass,
    .ok, []⟩

/-- RESIZE (R16). -/
def Tables.resize (t : Tables) (area : Nat) : CmdOutcome :=
  if area = t.policy.streamArea then ⟨t, .ok, []⟩
  else if area < t.policy.streamArea then t.shrink area
  else t.grow area

/-- EVICT (R87). -/
def Tables.evict (t : Tables) (a : Nat) : CmdOutcome :=
  match t.station? a with
  | none => t.refuse .noStation
  | some _ => ⟨t.removeStation a .ownerLost, .ok, []⟩

/-- A soft reset frees an entry that is ACTIVE or ENDING, its epoch rising by 1; a FREE entry keeps its epoch (R48). -/
def LeaseEntry.freed (e : LeaseEntry) : LeaseEntry :=
  if e.lease.isSome then ⟨e.epoch + 1, none⟩ else e

/-- SOFT_RESET on the tables (R186): leases freed with their epochs raised (R48), the stream area freed (R21), the queue
emptied and the ticket counter kept (R71), the stations emptied (R91), the map epoch raised with the cleared map as its
reference (R171), the alarm flags cleared, every policy value kept. -/
def Tables.softReset (t : Tables) : Tables :=
  let cleared := { t with
    leases := t.leases.map LeaseEntry.freed
    slots := freshSlots t.policy.streamArea
    queue := []
    stations := List.replicate Config.stationCount none
    mapEpoch := t.mapEpoch + 1
    alarms := 0 }
  { cleared with reference := cleared.image }

/-- A command that has passed steps 1 and 2 of its checks (R177). -/
def Tables.runCommand (t : Tables) (sync : Sync) : Command → CmdOutcome
  | .readSlot n => t.report (t.slot n).bytes
  | .readLease i => t.report (t.entry i).bytes
  | .readStation a part => t.readStation a part
  | .readQueue position => t.readQueue position
  | .readCounts => t.readCounts sync
  | .readPolicy id => t.readPolicy id
  | .setPolicy id v => t.setPolicy id v
  | .setQuota a quota => t.setQuota a quota
  | .houseGrant slots term pinned => t.houseGrant slots term pinned
  | .pin h on => t.pin h on
  | .revoke h immediate => t.revoke h immediate
  | .bar n => t.bar n
  | .unbar n => t.unbar n
  | .resize area => t.resize area
  | .evict a => t.evict a
  | .clearLeases => t.clearLeases
  | .softReset => ⟨t.softReset, .ok, []⟩

/-- A management command taken (R177). -/
def Tables.takeCommand (t : Tables) (sync : Sync) (command : List Byte) : CmdOutcome :=
  match parseCommand t.policy.streamArea command with
  | .bad r => t.refuse r
  | .good c => t.runCommand sync c

end Sys2Proof.Machine
end

