-- ==== Sys2Proof/Machine/Requests.lean ====
section
/-! DEFINITION. The station requests (chapter Station Requests): each kind after steps 1 to 3 of its checks, the order of
checks with the stored response, and the station reply taken whole. -/

namespace Sys2Proof.Machine

/-- An answer that carries its result code alone. -/
def plain (r : ReqResult) : Answer := ⟨r, []⟩

/-- RENEW after step 3 (R104): ownership, then the lease's state; an ACTIVE lease is renewed (R33) and an ENDING(EXPIRED)
one rescued (R34). -/
def Tables.requestRenew (t : Tables) (a : Nat) (h : Handle) (requested : Nat) : Tables × Answer :=
  match t.validLease? h with
  | none => (t, plain .staleHandle)
  | some l =>
    if l.owner ≠ a then (t, plain .notOwner)
    else
      let term := t.policy.clip requested
      let renewed := (t.setLease h.index (l.renewed term), (⟨.ok, h.bytes ++ termBytes term⟩ : Answer))
      match l.phase with
      | .active => renewed
      | .ending .expired _ _ => renewed
      | .ending .revoked _ _ => (t, plain .leaseEnding)
      | .ending .idle _ _ => (t, plain .leaseEnding)

/-- RELEASE after step 3 (R38, R106). -/
def Tables.requestRelease (t : Tables) (a : Nat) (h : Handle) : Tables × Answer :=
  match t.validLease? h with
  | none => (t, plain .staleHandle)
  | some l =>
    if l.owner ≠ a then (t, plain .notOwner)
    else (t.retire h.index l .released false, plain .ok)

/-- ATTACH after step 3 (R45, R107). -/
def Tables.requestAttach (t : Tables) (a : Nat) (h : Handle) : Tables × Answer :=
  match t.validLease? h with
  | none => (t, plain .staleHandle)
  | some l =>
    if l.owner = a ∨ a ∈ l.listeners then (t, plain .alreadyListening)
    else if l.isEnding then (t, plain .leaseEnding)
    else if Config.listenerMax ≤ l.listeners.length then (t, plain .listenersFull)
    else
      (t.setLease h.index { l with listeners := l.listeners ++ [a] },
        ⟨.ok, h.bytes ++ [byte (l.listeners.length + 1)]⟩)

/-- DETACH after step 3 (R45, R108). -/
def Tables.requestDetach (t : Tables) (a : Nat) (h : Handle) : Tables × Answer :=
  match t.validLease? h with
  | none => (t, plain .staleHandle)
  | some l =>
    if a ∈ l.listeners then (t.setLease h.index (l.dropListener a), ⟨.ok, h.bytes⟩)
    else (t, plain .notListening)

/-- The owner field of a view: 00h where no lease stands. -/
def ownerByte (l : Option Lease) : Byte :=
  match l with
  | none => 0
  | some l => byte l.owner

/-- The view of a slot (R109): the view byte, the handle and the owner (12.1). -/
def Tables.slotView (t : Tables) (n : Nat) : List Byte :=
  match t.slot n with
  | .outside => [0, 0, 0, 0]
  | .inArea (.free mark) _ => [1 ||| (if mark then 0x08 else 0), 0, 0, 0]
  | .inArea (.leased i) _ =>
    (if (t.lease? i).any Lease.isEnding then 3 else 2) :: (t.handle i).bytes ++ [ownerByte (t.lease? i)]
  | .inArea (.cooling _ _) _ => [4, 0, 0, 0]
  | .inArea (.barred reason) _ => [5 ||| (reason.code <<< 4), 0, 0, 0]

/-- QUERY_SLOT after step 3 (R109). -/
def Tables.requestQuerySlot (t : Tables) (n : Nat) : Tables × Answer :=
  (t, ⟨.ok, byte t.policy.streamArea :: t.slotView n⟩)

/-- The state and reason byte of QUERY_LEASE (12.1). -/
def Phase.stateByte : Phase → Byte
  | .active => 1
  | .ending reason _ _ => 2 ||| (reason.code <<< 4)

/-- The view of a lease (R110, 12.1). -/
def Lease.viewBytes (l : Lease) : List Byte :=
  [l.phase.stateByte, byte l.owner] ++ slotListBytes l.slots ++ word (l.term.remaining?.getD 0) ++
    [byte l.listeners.length, (if l.pinned then 0x01 else 0) ||| (if l.term.term?.isNone then 0x02 else 0)]

/-- QUERY_LEASE after step 3 (R110). -/
def Tables.requestQueryLease (t : Tables) (h : Handle) : Tables × Answer :=
  match t.validLease? h with
  | none => (t, plain .staleHandle)
  | some l => (t, ⟨.ok, l.viewBytes⟩)

/-- LIST_MINE after step 3 (R111): a page of handles from an index on, whether more follow, the tickets, held slots, quota;
the overflow flag is cleared after the page is formed (R112). -/
def Tables.requestListMine (t : Tables) (a : Nat) (st : Station) (start : Nat) : Tables × Answer :=
  let owned := (t.ownedBy a).filter fun i => start ≤ i
  let page := owned.take Config.pageMax
  let tickets := (t.queue.filter fun e => e.station == a).map PendingEntry.ticket
  let handles := (page.map fun i => (t.handle i).bytes).flatten
  (t.modifyStation a fun st => { st with overflow := false },
    ⟨.ok, byte page.length :: (handles ++ List.replicate 12 0).take 12 ++
      [boolByte (Config.pageMax < owned.length), byte tickets.length] ++
      (tickets.map byte ++ List.replicate 2 0).take 2 ++ [byte st.held, byte st.quota]⟩)

/-- CANCEL after step 3 (R64, R113): the station's own entry is removed without notice, with a queue pass when it was
anchored. -/
def Tables.requestCancel (t : Tables) (a : Nat) (ticket : Nat) : Tables × Answer :=
  match t.queue.find? fun e => e.ticket == ticket && e.station == a with
  | none => (t, plain .noTicket)
  | some e => ((t.removeEntry ticket a).passIf e.anchored, ⟨.ok, [byte ticket]⟩)

/-- LEAVE after step 3 (R88, R102): the removal with reason OWNER_LEFT. -/
def Tables.requestLeave (t : Tables) (a : Nat) : Tables × Answer :=
  (t.removeStation a .ownerLeft, plain .ok)

/-- Steps 4 to 7 of the check order, and the execution (R94). -/
def Tables.runRequest (t : Tables) (a : Nat) (st : Station) : Request → Tables × Answer
  | .leave => t.requestLeave a
  | .grant g => t.grantDecision a st g
  | .renew h term => t.requestRenew a h term
  | .release h => t.requestRelease a h
  | .attach h => t.requestAttach a h
  | .detach h => t.requestDetach a h
  | .querySlot n => t.requestQuerySlot n
  | .queryLease h => t.requestQueryLease h
  | .listMine start => t.requestListMine a st start
  | .cancel ticket => t.requestCancel a ticket

/-- Step 3 and after: a request that is not acceptable is refused BAD_REQUEST (R94, R96). -/
def Tables.checkedRequest (t : Tables) (a : Nat) (st : Station) (request : List Byte) : Tables × Answer :=
  match parseRequest request with
  | none => (t, plain .badRequest)
  | some r => t.runRequest a st r

/-- The response is stored with its sequence number, when the station has an entry to hold it (R99): none is left after a
LEAVE (R88). -/
def Tables.storeResponse (t : Tables) (a : Nat) (seq : BitVec 4) (body : List Byte) : Tables :=
  t.modifyStation a fun st => { st with lastSeq := seq, lastResponse := body }

/-- The request stage for every kind but JOIN: absent stations, repetitions, then the checks (R94, R95, R98, R99). -/
def Tables.requestStage (t : Tables) (a : Nat) (seq : BitVec 4) (request : List Byte) : Tables × List Byte :=
  match t.station? a with
  | none => (t, Answer.body (requestKind request) (plain .notJoined))
  | some st =>
    if seq = st.lastSeq then (t, st.lastResponse)
    else
      let (t', answer) := t.checkedRequest a st request
      (t'.storeResponse a seq (answer.body (requestKind request)), answer.body (requestKind request))

/-- A JOIN whose body has not the length of a JOIN (R101). DEDUCED: under the station's last sequence number too it is
refused and the refusal stored, as R101 says of every such JOIN, and not answered from the store, as R100 says of every kind
(log entry 21). -/
def Tables.badJoin (t : Tables) (a : Nat) (seq : BitVec 4) : Tables × List Byte :=
  (t.storeResponse a seq (Answer.body 0x01 (plain .badRequest)), Answer.body 0x01 (plain .badRequest))

/-- The response to a JOIN under another tag: the tag held in the table (R77). -/
def addressTaken (st : Station) : List Byte := Answer.body 0x01 ⟨.addressTaken, tagBytes st.tag⟩

/-- A JOIN in reply to a poll of its source address, in the four cases of section 4.3 (R101), but for a claim on a held
address, which `ownReply` sets aside. -/
def Tables.joinStage (t : Tables) (a : Nat) (seq : BitVec 4) (request : List Byte) : Tables × List Byte :=
  match joinTag request with
  | none => t.badJoin a seq
  | some tag =>
    match t.station? a with
    | none => (t.firstJoin a tag seq, joinOk t.policy.defaultQuota)
    | some st =>
      if seq = st.lastSeq then (t, st.lastResponse) else (t.rejoin a seq, joinOk st.quota)

/-- A JOIN that claims an address held under another tag (R77). -/
def Tables.claim? (t : Tables) (a : Nat) (request : List Byte) : Option Station :=
  match joinTag request, t.station? a with
  | some tag, some st => if st.tag = tag then none else some st
  | _, _ => none

/-- A reply to a poll of its source address, taken whole (R25, R80): liveness, the request stage, the acknowledgment stage.
The second part is the response body, none for IDLE (R92). A claim on a held address changes nothing (R77). -/
def Tables.ownReply (t : Tables) (f : ReplyFrame) : Tables × Option (List Byte) :=
  match f.request with
  | none => ((t.modifyStation f.source .alive).acknowledge f.source f.ack, none)
  | some request =>
    match t.claim? f.source request with
    | some st => (t, some (addressTaken st))
    | none =>
      let t1 := t.modifyStation f.source .alive
      let (t2, body) :=
        if isJoin request then t1.joinStage f.source f.seq request
        else t1.requestStage f.source f.seq request
      (t2.acknowledge f.source f.ack, some body)

/-- A reply to an open poll (R75): a first join or a rejoin is taken, everything else is discarded, and no acknowledgment is
matched. -/
def Tables.openReply (t : Tables) (f : ReplyFrame) : Tables × Option (List Byte) :=
  match f.request.bind joinTag with
  | none => (t, none)
  | some tag =>
    match t.station? f.source with
    | none => (t.firstJoin f.source tag f.seq, some (joinOk t.policy.defaultQuota))
    | some st =>
      if st.tag = tag ∧ f.seq ≠ st.lastSeq then (t.rejoin f.source f.seq, some (joinOk st.quota))
      else (t, none)

/-- A station reply taken (R25). -/
def Tables.takeReply (t : Tables) (f : ReplyFrame) (openPoll : Bool) : Tables × Option (List Byte) :=
  if openPoll then t.openReply f else t.ownReply f

end Sys2Proof.Machine
end

