-- ==== Sys2Proof/Machine/Tmon.lean ====
section
/-! DEFINITION. The Trunk Monitor and the Beacon Generator (chapters Trunk Monitor and Audit, The Map Beacon). -/

namespace Sys2Proof.Machine

/-! ### Views of the sync state -/

/-- The frame alignment, held in every state but UNLOCKED (R151). -/
def Sync.alignment? : Sync → Option Alignment
  | .unlocked => none
  | .confirming al _ => some al
  | .locked al _ => some al
  | .slipping al _ _ => some al

/-- The window under way, held in LOCKED and SLIPPING (R151). -/
def Sync.window? : Sync → Option Window
  | .unlocked => none
  | .confirming _ _ => none
  | .locked _ w => some w
  | .slipping _ w _ => some w

/-- The Trunk Monitor is LOCKED or SLIPPING, in which windows are counted (R158) and the beacon is sent (R167). -/
def State.trunkHeld (s : State) : Bool := s.trunk.sync.window?.isSome

/-- The bits of slot 0 are under way in a frame that carries a beacon byte: BCN_OE is asserted (R167, R169). -/
def State.bcnOe (s : State) : Bool :=
  match s.trunk.sync.window?, s.trunk.sync.alignment?, s.beacon.current with
  | some _, some al, some _ => al.bitPos < 8
  | _, _, _ => false

/-- The byte driven in slot 0 of the frame under way: byte i of the current image in frame i, from frame 132 on the IDLE_CODE
that stood at the frame start (R167). -/
def State.beaconByte? (s : State) : Option Byte :=
  match s.trunk.sync.window?, s.beacon.current with
  | some w, some image => some ((image[w.frame]?).getD w.idle)
  | _, _ => none

/-- The level of BCN_OUT, most significant bit first at bit position 0; none where it carries nothing of meaning (R167). -/
def State.bcnOut (s : State) : Option Bool :=
  if s.bcnOe then
    match s.beaconByte?, s.trunk.sync.alignment? with
    | some b, some al => some (b.getLsbD (7 - al.bitPos))
    | _, _ => none
  else none

/-! ### The images of the Beacon Generator (R166, R169) -/

/-- At period frame number 0 the next image becomes the current one, or the current one absent (R166). -/
def Beacon.swap (b : Beacon) : Beacon := ⟨b.next, none⟩

/-- The loss of the trunk: both images become absent (R169). -/
def Beacon.stop : Beacon := ⟨none, none⟩

/-- A snapshot handed over: the next image while the trunk is held, discarded otherwise (R165, R169). -/
def State.takeSnapshot (s : State) (image : List Byte) : State :=
  if s.trunkHeld then { s with beacon := { s.beacon with next := some image } } else s

/-! ### Windows and activity (R158 to R160) -/

/-- The audit report: active at or above ACTIVE_THRESHOLD (R160). -/
def auditReport (threshold : Nat) (counts : List Nat) : List Finding :=
  counts.map fun c => if threshold ≤ c then .active else .quiet

/-- No activity in any slot. -/
def noCounts : List Nat := List.replicate Config.slotCount 0

/-- Frame 0 of a new window (R153, R158). -/
def Window.fresh (idle : Byte) : Window := ⟨0, noCounts, idle⟩

/-- The activity count of a slot rises by 1, up to 1024 (R159). -/
def raiseCount (counts : List Nat) (n : Nat) : List Nat :=
  setNth counts n (min Config.windowFrames ((nth? counts n).getD 0 + 1))

/-- The byte of the slot that ends at a bit position is counted when it differs from IDLE_CODE; slot 0 is not counted (R149,
R159). -/
def Window.endByte (w : Window) (bitPos : Nat) (b : Byte) : Window :=
  if bitPos % 8 = 7 ∧ b ≠ w.idle then { w with counts := raiseCount w.counts (bitPos / 8) } else w

/-- A bit enters the byte under way, most significant bit first (R149). -/
def pushBit (b : Byte) (bit : Bool) : Byte := (b <<< 1) ||| (if bit then 1 else 0)

/-- A TCLK period away from the frame start: the bit position advances, the bit is taken, and a TFS recognised there is
misplaced (R149, R150). -/
def Alignment.advance (al : Alignment) (tfs tdat : Bool) : Alignment :=
  ⟨al.bitPos + 1, al.misplaced || tfs, pushBit al.shift tdat⟩

/-- The window after such a TCLK period (R159). -/
def Window.advance (w : Window) (al : Alignment) : Window := w.endByte al.bitPos al.shift

/-- The sync state after a TCLK period away from the frame start. -/
def Sync.advance (tfs tdat : Bool) : Sync → Sync
  | .unlocked => .unlocked
  | .confirming al good => .confirming (al.advance tfs tdat) good
  | .locked al w => .locked (al.advance tfs tdat) (w.advance (al.advance tfs tdat))
  | .slipping al w bad => .slipping (al.advance tfs tdat) (w.advance (al.advance tfs tdat)) bad

/-! ### Frame starts (R150 to R155, R158) -/

/-- The alignment at a frame start. -/
def Alignment.start : Alignment := ⟨0, false, 0⟩

/-- The end of frame 1023 has come: the window is complete (R158). -/
def Window.complete (w : Window) : Bool := w.frame + 1 == Config.windowFrames

/-- The window at a frame start: the next frame of it, or frame 0 of the next window (R158). -/
def Window.nextFrame (w : Window) (idle : Byte) : Window :=
  if w.complete then .fresh idle else { w with frame := w.frame + 1, idle := idle }

/-- A complete window gives its report, delivered as the period close, and the images change (R158, R160, R166). -/
def State.deliver (s : State) : State :=
  match s.trunk.sync.window? with
  | none => s
  | some w =>
    if w.complete then
      { s with
        arbiter := { s.arbiter with
          closes := s.arbiter.closes ++ [auditReport s.te.policy.activeThreshold w.counts] }
        beacon := s.beacon.swap }
    else s

/-- A sync state of the Trunk Monitor. -/
def State.setSync (s : State) (y : Sync) : State := { s with trunk := { s.trunk with sync := y } }

/-- Entry to UNLOCKED from LOCKED or SLIPPING: SYNC_LOST is raised, the window is discarded, the beacon stops (R157, R160,
R169). -/
def State.loseTrunk (s : State) : State :=
  { s with te := s.te.raise .syncLost, beacon := Beacon.stop }.setSync .unlocked

/-- Entry to LOCKED from CONFIRMING: frame 0 of a new window, at which the images change (R153, R166). -/
def State.enterLocked (s : State) : State :=
  { s with beacon := s.beacon.swap }.setSync (.locked .start (.fresh s.te.policy.idleCode))

/-- The judgement at a frame start and the transition it gives (R151 to R155); the window has been seen to before (R158). -/
def State.judge (s : State) (good : Bool) : State :=
  let idle := s.te.policy.idleCode
  match s.trunk.sync with
  | .unlocked => s
  | .confirming _ n =>
    if good then
      if Config.confirmGoal ≤ n + 1 then s.enterLocked else s.setSync (.confirming .start (n + 1))
    else s.setSync .unlocked
  | .locked _ w =>
    if good then s.setSync (.locked .start (w.nextFrame idle))
    else s.setSync (.slipping .start (w.nextFrame idle) 1)
  | .slipping _ w bad =>
    if good then s.setSync (.locked .start (w.nextFrame idle))
    else if Config.badGoal ≤ bad + 1 then s.loseTrunk
    else s.setSync (.slipping .start (w.nextFrame idle) (bad + 1))

/-- A frame start by the monitor's own count, with or without a TFS recognised at it (R149, R150, R158). -/
def State.frameStart (s : State) (tfs : Bool) : State :=
  match s.trunk.sync.alignment? with
  | none => s
  | some al => s.deliver.judge (tfs && !al.misplaced)

/-! ### TCLK periods (R149, R152, R156) -/

/-- A TCLK period restarts the TCLK watch (R156), and TFS is sampled in it (R149). -/
def State.sampleTfs (s : State) (level : Bool) : State :=
  { s with trunk := { s.trunk with tfsWasLow := !level, tclkWatch := 0 } }

/-- The effect of a TCLK period, given whether a TFS is recognised in it: in UNLOCKED the first TFS starts CONFIRMING at bit
position 0 (R152); otherwise the bit position advances, and returns from 511 to 0 at a frame start (R149). -/
def State.takeBit (s : State) (tfs tdat : Bool) : State :=
  match s.trunk.sync.alignment? with
  | none => if tfs then s.setSync (.confirming .start 0) else s
  | some al =>
    if Config.frameBits ≤ al.bitPos + 1 then s.frameStart tfs else s.setSync (s.trunk.sync.advance tfs tdat)

/-- A TCLK period with the levels sampled (R149): a TFS is recognised when it is asserted after having been deasserted. -/
def State.tclkPeriod (s : State) (level tdat : Bool) : State :=
  (s.sampleTfs level).takeBit (level && s.trunk.tfsWasLow) tdat

/-- The rest of a slot byte that has begun, filled with the bits of IDLE_CODE. -/
def fillByte (idle b : Byte) (bits : Nat) : Byte := (b <<< (8 - bits)) ||| (idle &&& (0xFF#8 >>> bits))

/-- The window when the rest of its frame brings IDLE_CODE: only the byte under way can still count. -/
def Window.fillFrame (w : Window) (al : Alignment) : Window :=
  if al.bitPos % 8 = 7 then w
  else w.endByte (al.bitPos / 8 * 8 + 7) (fillByte w.idle al.shift (al.bitPos % 8 + 1))

/-- The TCLK periods up to the end of the frame, when the commands do not give them: TFS deasserted and the slots idle (log
entry 5). -/
def Sync.fillFrame : Sync → Sync
  | .unlocked => .unlocked
  | .confirming al good => .confirming al good
  | .locked al w => .locked al (w.fillFrame al)
  | .slipping al w bad => .slipping al (w.fillFrame al) bad

/-- A frame start given as one event (R150): the rest of the frame under way, then the frame start. -/
def State.frameStartEvent (s : State) (tfs : Bool) : State :=
  match s.trunk.sync.alignment? with
  | none => s
  | some _ => ((s.setSync s.trunk.sync.fillFrame).sampleTfs tfs).frameStart tfs

/-- 1 ms has passed without TCLK (R156). -/
def State.tclkLost (s : State) : State :=
  let s := { s with trunk := { s.trunk with tclkWatch := Config.tclkLimit } }
  match s.trunk.sync with
  | .unlocked => s
  | .confirming _ _ => s.setSync .unlocked
  | .locked _ _ => s.loseTrunk
  | .slipping _ _ _ => s.loseTrunk

end Sys2Proof.Machine
end

