-- ==== Sys2Proof/Machine/Arbiter.lean ====
section
/-! DEFINITION. The operations of the Table Engine (section 2.1): the arbiter's order, each operation taken whole on the
state, the handing over, and the block's own step when no command waits. -/

namespace Sys2Proof.Machine

/-- An operation of the Table Engine (R22). -/
inductive Operation where
  | command (bytes : List Byte)
  | close (report : List Finding)
  | expiry (address : Nat)
  | station (op : StationOp)
deriving DecidableEq, Repr

/-- The next operation the arbiter takes (R23): a management command, a period close, a silence expiry by ascending address,
a station reply or miss report. -/
def State.nextOperation? (s : State) : Option Operation :=
  match s.port.mailbox with
  | .busy c => some (.command c)
  | _ =>
    match s.arbiter.closes with
    | r :: _ => some (.close r)
    | [] =>
      match s.arbiter.expiries with
      | a :: _ => some (.expiry a)
      | [] => s.arbiter.station.map .station

/-! ### Operations taken whole -/

/-- What a SOFT_RESET does outside the tables: the next image is discarded (R171) and the exchange abandoned (R146). -/
def State.afterSoftReset (s : State) : State :=
  { s with beacon := { s.beacon with next := none } }.abandonExchange

/-- A management command taken: the tables, and the response in the port, which becomes DONE (R176, R186). -/
def State.performCommand (s : State) (c : List Byte) : State :=
  let o := s.te.takeCommand s.trunk.sync c
  let s' := { s with te := o.tables, port := { s.port with mailbox := .done ⟨c.headD 0, o.result, o.body⟩ } }
  if parseCommand s.te.policy.streamArea c = .good .softReset then s'.afterSoftReset else s'

/-- A period close taken: the tables, and the snapshot to the Beacon Generator (R26, R165). -/
def State.performClose (s : State) (report : List Finding) : State :=
  let te := s.te.periodClose report
  { s with te := te, arbiter := { s.arbiter with closes := s.arbiter.closes.tail } }.takeSnapshot te.snapshotBytes

/-- A silence expiry taken (R84, R86). -/
def State.performExpiry (s : State) (a : Nat) : State :=
  { s with te := s.te.silenceExpiry a, arbiter := { s.arbiter with expiries := s.arbiter.expiries.erase a } }

/-- A miss report taken (R81, R82). -/
def State.performMiss (s : State) (a : Nat) : State :=
  { s with te := s.te.miss a }.setStationOp none

/-- A station reply taken, and its response handed to the Request Line Controller (R25, R139). -/
def State.performReply (s : State) (f : ReplyFrame) (openPoll : Bool) : State :=
  let (te, body) := s.te.takeReply f openPoll
  ({ s with te := te }.setStationOp none).answerReply f body

/-- An operation taken whole (R22). -/
def State.perform (s : State) : Operation → State
  | .command c => s.performCommand c
  | .close r => s.performClose r
  | .expiry a => s.performExpiry a
  | .station (.reply f openPoll) => s.performReply f openPoll
  | .station (.miss a) => s.performMiss a

/-- An operation is taken when it is the arbiter's next; otherwise it goes on waiting (R23). -/
def State.take (s : State) (op : Operation) : State :=
  if s.nextOperation? = some op then s.perform op else s

/-! ### Handing over -/

/-- WRITE COMMAND, judged at the rising edge of CS_N by the port state (R175). -/
def State.writeCommand (s : State) (c : List Byte) : State :=
  match s.port.mailbox with
  | .busy _ => { s with port := { s.port with rejected := true } }
  | _ =>
    if 1 ≤ c.length ∧ c.length ≤ Config.commandMax then
      { s with port := { s.port with mailbox := .busy c, rejected := false } }
    else { s with port := { s.port with rejected := true } }

/-- A management command: the one the port holds, or else written first (log entry 4); it is taken when accepted. -/
def State.manage (s : State) (c : List Byte) : State :=
  (if s.port.mailbox = .busy c then s else s.writeCommand c).take (.command c)

/-- The reply handed over, when it is the frame of a command. -/
def State.takeHandedReply (s : State) (f : ReplyFrame) : State :=
  match s.arbiter.station with
  | some (.reply g openPoll) => if g = f then s.take (.station (.reply g openPoll)) else s
  | _ => s

/-- A station reply: the one handed over, or else received to its end first (log entry 4). -/
def State.replied (s : State) (f : ReplyFrame) : State :=
  (if s.arbiter.station.isNone then s.frameEnd (cleanChars f.bytes) else s).takeHandedReply f

/-- A miss report: the one handed over, or else the expiry of the window that gives it (log entry 4). -/
def State.missReport (s : State) (a : Nat) : State :=
  (match s.arbiter.station, s.line.exchange with
    | none, .awaitReply b _ => if a = b then s.windowExpiry else s
    | _, _ => s).take (.station (.miss a))

/-- An address in its ascending place, once. -/
def insertAddress (a : Nat) : List Nat → List Nat
  | [] => [a]
  | b :: bs => if a < b then a :: b :: bs else if a = b then b :: bs else b :: insertAddress a bs

/-- A silence timer has run out: the expiry waits for the arbiter (R84). -/
def State.raiseExpiry (s : State) (a : Nat) : State :=
  { s with
    te := s.te.modifyStation a fun st => { st with live := .silent 0 }
    arbiter := { s.arbiter with expiries := insertAddress a s.arbiter.expiries } }

/-- A silence expiry: the one raised, or else the run-out of the timer of a SILENT station (log entry 4). -/
def State.expire (s : State) (a : Nat) : State :=
  (if a ∈ s.arbiter.expiries then s else if s.te.isSilent a then s.raiseExpiry a else s).take (.expiry a)

/-- The period close in which a named record runs out (R26): no operation is divided (R22), so the event on the one record is
the close it comes about in, taken whole when it is the arbiter's next operation and holds that event (log entry 6). -/
def State.closeWith (s : State) (runOut : List Finding → List Nat) (record : Nat) : State :=
  match s.nextOperation? with
  | some (.close report) => if record ∈ runOut report then s.performClose report else s
  | _ => s

/-! ### The block on its own, when no command waits (log entry 2) -/

/-- A microsecond of the exchange in hand: the times of R134 run, and what they end happens. -/
def State.tickLine (s : State) : State :=
  match s.line.exchange with
  | .gap elapsed =>
    if Config.gapTime ≤ elapsed + 1 then (s.setExchange (.gap Config.gapTime)).gapComplete
    else s.setExchange (.gap (elapsed + 1))
  | .sendPoll a frame window left =>
    if left ≤ 1 then s.pollSent else s.setExchange (.sendPoll a frame window (left - 1))
  | .awaitReply a left => if left ≤ 1 then s.windowExpiry else s.setExchange (.awaitReply a (left - 1))
  | .receiving _ => s
  | .waitEngine _ => s
  | .sendResponse frame left => if left ≤ 1 then s.responseSent else s.setExchange (.sendResponse frame (left - 1))
  | .finishChar c left => s.setExchange (if left ≤ 1 then .gap 0 else .finishChar c (left - 1))

/-- A microsecond of the TCLK watch (R156). -/
def State.tickWatch (s : State) : State :=
  if Config.tclkLimit ≤ s.trunk.tclkWatch then s
  else if Config.tclkLimit ≤ s.trunk.tclkWatch + 1 then s.tclkLost
  else { s with trunk := { s.trunk with tclkWatch := s.trunk.tclkWatch + 1 } }

/-- The expiries of the timers that run out with this millisecond join those waiting (R84). -/
def State.tickMillisecond (s : State) : State :=
  { s with
    te := { s.te with stations := s.te.stations.map (Option.map Station.tickMs) }
    arbiter := { s.arbiter with
      expiries := (addresses.filter s.te.runsOut).foldl (fun es a => insertAddress a es) s.arbiter.expiries } }

/-- A microsecond of the silence timers, which count milliseconds (R84). -/
def State.tickTimers (s : State) : State :=
  if 1000 ≤ s.usPhase + 1 then { s with usPhase := 0 }.tickMillisecond else { s with usPhase := s.usPhase + 1 }

/-- A microsecond of local time. -/
def State.tick (s : State) : State := s.tickTimers.tickWatch.tickLine

/-- The block on its own: the Table Engine takes the next operation waiting; when none waits, a microsecond passes. -/
def State.ownStep (s : State) : State :=
  match s.nextOperation? with
  | some op => s.perform op
  | none => s.tick

end Sys2Proof.Machine
end

