-- ==== Sys2Proof/Machine/EngineRows.lean ====
section
/-! DEFINITION. The other operations of the Table Engine, and the events of the period close on one record. -/

namespace Sys2Proof.Machine

/-- MISS_REPORT (R81, R82). -/
def execMissReport (address : Nat) (s : State) : Host.Outcome State Fault Refusal :=
  .next (s.missReport address)

/-- SILENCE_EXPIRY (R84, R86). -/
def execSilenceExpiry (address : Nat) (s : State) : Host.Outcome State Fault Refusal :=
  .next (s.expire address)

/-- PERIOD_CLOSE (R26, R160, R165): the close the Trunk Monitor has delivered, with the findings it was formed with. -/
def execPeriodClose (report : List Finding) (s : State) : Host.Outcome State Fault Refusal :=
  .next (s.take (.close report))

/-- TERM_EXPIRY (R42): stage 3 of the close that is next takes the lease's remaining term to 0. DESIGN CHOICE: the row is that
close, whole, in which it comes about (R22, R26; log entry 6). -/
def execTermExpiry (lease : Nat) (s : State) : Host.Outcome State Fault Refusal :=
  .next (s.closeWith s.te.termsRunningOut lease)

/-- END_DEADLINE_EXPIRY (R32): stage 4 of the close that is next takes the lease's deadline to 0, likewise (log entry 6). -/
def execEndDeadlineExpiry (lease : Nat) (s : State) : Host.Outcome State Fault Refusal :=
  .next (s.closeWith (fun _ => s.te.deadlinesRunningOut) lease)

/-- COOLING_END (R12): stage 5 of the close that is next takes the slot's cool count to 0, likewise (log entry 6). -/
def execCoolingEnd (slot : Nat) (s : State) : Host.Outcome State Fault Refusal :=
  .next (s.closeWith s.te.coolsRunningOut slot)

/-- WAIT_EXPIRY (R63): stage 6 of the close that is next takes the entry's wait to 0, likewise (log entry 6). -/
def execWaitExpiry (ticket : Nat) (s : State) : Host.Outcome State Fault Refusal :=
  .next (s.closeWith (fun _ => s.te.waitsRunningOut) ticket)

end Sys2Proof.Machine
end

