-- ==== Sys2Proof/Machine/LineRows.lean ====
section
/-! DEFINITION. The events of the request line (chapter The Request Line). -/

namespace Sys2Proof.Machine

/-- POLL (R134, R135, R140, R141). -/
def execPoll (s : State) : Host.Outcome State Fault Refusal :=
  .next s.gapComplete

/-- POLL_SENT (R136). -/
def execPollSent (s : State) : Host.Outcome State Fault Refusal :=
  .next s.pollSent

/-- REPLY_START (R137). -/
def execReplyStart (s : State) : Host.Outcome State Fault Refusal :=
  .next s.startBit

/-- REPLY_WINDOW_EXPIRY (R137). -/
def execReplyWindowExpiry (s : State) : Host.Outcome State Fault Refusal :=
  .next s.windowExpiry

/-- FRAME_END (R131 to R133, R138). -/
def execFrameEnd (chars : List RxChar) (s : State) : Host.Outcome State Fault Refusal :=
  .next (s.frameEnd chars)

/-- THIRTY_THIRD_CHARACTER (R132, R138). -/
def execThirtyThirdCharacter (s : State) : Host.Outcome State Fault Refusal :=
  .next s.tooLong

/-- RESPONSE_SENT (R139). -/
def execResponseSent (s : State) : Host.Outcome State Fault Refusal :=
  .next s.responseSent

end Sys2Proof.Machine
end

