-- ==== Sys2Proof/Machine/ManagementRows.lean ====
section
/-! DEFINITION. The management commands, each the operation the Table Engine takes (chapter The Management Port). -/

namespace Sys2Proof.Machine

/-- READ_SLOT (R177, R178). -/
def execReadSlot (fields : List Byte) (s : State) : Host.Outcome State Fault Refusal :=
  .next (s.manage (0x01 :: fields))

/-- READ_LEASE (R177, R178). -/
def execReadLease (fields : List Byte) (s : State) : Host.Outcome State Fault Refusal :=
  .next (s.manage (0x02 :: fields))

/-- READ_STATION (R177, R179). -/
def execReadStation (fields : List Byte) (s : State) : Host.Outcome State Fault Refusal :=
  .next (s.manage (0x03 :: fields))

/-- READ_QUEUE (R177, R178). -/
def execReadQueue (fields : List Byte) (s : State) : Host.Outcome State Fault Refusal :=
  .next (s.manage (0x04 :: fields))

/-- READ_COUNTS (R177, R178). -/
def execReadCounts (fields : List Byte) (s : State) : Host.Outcome State Fault Refusal :=
  .next (s.manage (0x05 :: fields))

/-- READ_POLICY (R177, R182). -/
def execReadPolicy (fields : List Byte) (s : State) : Host.Outcome State Fault Refusal :=
  .next (s.manage (0x06 :: fields))

/-- SET_POLICY (R177, R182, R13). -/
def execSetPolicy (fields : List Byte) (s : State) : Host.Outcome State Fault Refusal :=
  .next (s.manage (0x07 :: fields))

/-- SET_QUOTA (R177, R89, R68). -/
def execSetQuota (fields : List Byte) (s : State) : Host.Outcome State Fault Refusal :=
  .next (s.manage (0x08 :: fields))

/-- HOUSE_GRANT (R177, R180). -/
def execHouseGrant (fields : List Byte) (s : State) : Host.Outcome State Fault Refusal :=
  .next (s.manage (0x09 :: fields))

/-- The command bytes are a PIN or REVOKE that is good but for its selector, which is another (12.4). -/
def otherSelector (selector : Byte) : List Byte → Bool
  | [_, _, s] => s == selector
  | _ => false

/-- PIN_ON (R43, R181): PIN with the selector on; a PIN that is malformed is taken under either name. -/
def execPinOn (fields : List Byte) (s : State) : Host.Outcome State Fault Refusal :=
  .next (if otherSelector 0 fields then s else s.manage (0x0A :: fields))

/-- PIN_OFF (R43, R181): PIN with the selector off; a PIN that is malformed is taken under either name. -/
def execPinOff (fields : List Byte) (s : State) : Host.Outcome State Fault Refusal :=
  .next (if otherSelector 1 fields then s else s.manage (0x0A :: fields))

/-- REVOKE_SOFT (R35, R181): REVOKE with the selector soft; a malformed one is taken under either name. -/
def execRevokeSoft (fields : List Byte) (s : State) : Host.Outcome State Fault Refusal :=
  .next (if otherSelector 1 fields then s else s.manage (0x0B :: fields))

/-- REVOKE_IMMEDIATE (R36, R181): REVOKE with the selector immediate; a malformed one is taken under either name. -/
def execRevokeImmediate (fields : List Byte) (s : State) : Host.Outcome State Fault Refusal :=
  .next (if otherSelector 0 fields then s else s.manage (0x0B :: fields))

/-- BAR (R177, R14). -/
def execBar (fields : List Byte) (s : State) : Host.Outcome State Fault Refusal :=
  .next (s.manage (0x0C :: fields))

/-- UNBAR (R177, R15). -/
def execUnbar (fields : List Byte) (s : State) : Host.Outcome State Fault Refusal :=
  .next (s.manage (0x0D :: fields))

/-- RESIZE (R177, R16 to R18). -/
def execResize (fields : List Byte) (s : State) : Host.Outcome State Fault Refusal :=
  .next (s.manage (0x0E :: fields))

/-- EVICT (R177, R87). -/
def execEvict (fields : List Byte) (s : State) : Host.Outcome State Fault Refusal :=
  .next (s.manage (0x0F :: fields))

/-- CLEAR_LEASES (R177, R40, R66). -/
def execClearLeases (fields : List Byte) (s : State) : Host.Outcome State Fault Refusal :=
  .next (s.manage (0x10 :: fields))

/-- SOFT_RESET (R177, R186). -/
def execSoftReset (fields : List Byte) (s : State) : Host.Outcome State Fault Refusal :=
  .next (s.manage (0x11 :: fields))

end Sys2Proof.Machine
end

