-- ==== Sys2Proof/Machine/PortRows.lean ====
section
/-! DEFINITION. The commands of the outside on the Management Port and RESET_N: POWER_ON_RESET, WRITE_COMMAND,
WRITE_ALARM_ENABLE, CLEAR_ALARMS. -/

namespace Sys2Proof.Machine

/-- POWER_ON_RESET: power-up, or RESET_N held low and released; every record takes its power-on value (R20, R47, R70, R90,
R116, R129, R147, R162, R170, R187). The queue of commands is not the part's. -/
def execPowerOnReset (s : State) : Host.Outcome State Fault Refusal :=
  .next { State.reset with pending := s.pending }

/-- WRITE_COMMAND at the rising edge of CS_N (R172, R175): a transaction that ends partway through a byte is discarded. -/
def execWriteCommand (w : SpiWrite) (s : State) : Host.Outcome State Fault Refusal :=
  .next (if w.whole then s.writeCommand w.bytes else s)

/-- WRITE_ALARM_ENABLE (R172, R184): the enables are replaced whole; bit 7 names no flag; without its mask byte the function
is discarded, and bytes after it are ignored. -/
def execWriteAlarmEnable (w : SpiWrite) (s : State) : Host.Outcome State Fault Refusal :=
  match w.whole, w.bytes with
  | true, mask :: _ => .next { s with port := { s.port with enables := mask.setWidth 7 } }
  | _, _ => .next s

/-- CLEAR_ALARMS (R172, R184). -/
def execClearAlarms (w : SpiWrite) (s : State) : Host.Outcome State Fault Refusal :=
  match w.whole, w.bytes with
  | true, mask :: _ => .next { s with te := s.te.clearAlarms mask }
  | _, _ => .next s

/-! ### Transactions by their function byte (R172, R173, 12.4) -/

/-- The bytes READ STATUS returns (R173). -/
def State.readStatus (s : State) : List Byte := [s.statusByte]

/-- The bytes READ ALARMS returns: the flags, then the enables (R173, 12.4). -/
def State.readAlarms (s : State) : List Byte := [s.te.alarms.setWidth 8, s.port.enables.setWidth 8]

/-- The bytes READ RESPONSE returns: the status byte and, when the port is DONE, the response buffer (R173, 12.4). -/
def State.readResponse (s : State) : List Byte :=
  match s.port.mailbox with
  | .done r => [s.statusByte, r.code, r.result.code, byte r.body.length] ++ r.body
  | _ => [s.statusByte]

/-- The n-th byte a read function drives after its function byte: 00h beyond the end (R172). -/
def readByte (bytes : List Byte) (n : Nat) : Byte := bytes.getD n 0

/-- The port functions (R172). -/
inductive PortFunction where
  | writeCommand
  | readResponse
  | readStatus
  | readAlarms
  | writeAlarmEnable
  | clearAlarms
deriving DecidableEq, Repr

/-- The function a function byte names (12.4). -/
def portFunction? (b : Byte) : Option PortFunction :=
  match b.toNat with
  | 1 => some .writeCommand
  | 2 => some .readResponse
  | 3 => some .readStatus
  | 4 => some .readAlarms
  | 5 => some .writeAlarmEnable
  | 6 => some .clearAlarms
  | _ => none

/-- The bit of a byte shifted at a place from 0 to 7: most significant bit first (R172). -/
def shiftedBit (b : Byte) (place : Nat) : Bool := b.getLsbD (7 - place)

/-- The whole bytes of the bits sampled on SDI, in the order sampled, each most significant bit first (R172); the bits of a
byte not complete are left over. -/
def bytesShifted : List Bool → List Byte
  | b7 :: b6 :: b5 :: b4 :: b3 :: b2 :: b1 :: b0 :: rest =>
    [b7, b6, b5, b4, b3, b2, b1, b0].foldl pushBit 0 :: bytesShifted rest
  | _ => []

/-- What the part makes of a transaction's bits: the bytes after the function byte, and whether it ended on a whole byte. -/
def spiWriteOf (bits : List Bool) : SpiWrite := ⟨(bytesShifted bits).tail, bits.length % 8 == 0⟩

/-- A whole transaction at the rising edge of CS_N (R172), given the bits sampled on SDI: its write function takes the bytes
after the function byte; a read function, a byte that names no function, or no whole byte changes nothing. -/
def spiTransaction (bits : List Bool) (s : State) : Host.Outcome State Fault Refusal :=
  match (bytesShifted bits).head?.bind portFunction? with
  | some .writeCommand => execWriteCommand (spiWriteOf bits) s
  | some .writeAlarmEnable => execWriteAlarmEnable (spiWriteOf bits) s
  | some .clearAlarms => execClearAlarms (spiWriteOf bits) s
  | _ => .next s

/-- What stands on SDO over the time of one bit. -/
inductive Sdo where
  /-- The pin is not driven (R172). -/
  | undriven
  /-- A level is driven. -/
  | drives (level : Bool)
  /-- The spec gives no level (log entry 20). -/
  | unstated
deriving DecidableEq, Repr

/-- The byte shifted out on SDO as byte n of a transaction that began in this state under a function byte (R172, R173): 00h
throughout under an unknown function, and so as every function byte comes in (log entry 20); under a read function its bytes
from byte 1 on and 00h beyond their end; none is stated under a write function. -/
def State.sdoByte? (s : State) (function : Byte) (n : Nat) : Option Byte :=
  if n = 0 then some 0
  else
    match portFunction? function with
    | some .readResponse => some (readByte s.readResponse (n - 1))
    | some .readStatus => some (readByte s.readStatus (n - 1))
    | some .readAlarms => some (readByte s.readAlarms (n - 1))
    | none => some 0
    | some _ => none

/-- SDO over bit k of such a transaction, given the levels of RESET_N and CS_N: undriven in reset or with CS_N high; each byte
most significant bit first (R172). -/
def State.sdo (s : State) (resetN csN : Bool) (function : Byte) (k : Nat) : Sdo :=
  if !resetN || csN then .undriven
  else
    match s.sdoByte? function (k / 8) with
    | some b => .drives (shiftedBit b (k % 8))
    | none => .unstated

end Sys2Proof.Machine
end

