-- ==== Sys2Proof/Machine/RequestRows.lean ====
section
/-! DEFINITION. The station replies by the request they carry (chapter Station Requests). -/

namespace Sys2Proof.Machine

/-- The reply frame with a head and a request (R92). -/
def headFrame (h : ReplyHead) (request : Option (List Byte)) : ReplyFrame :=
  ⟨h.source.toNat, h.seq, h.ack, request⟩

/-- JOIN: the station reply that carries it (R25, R101, R75 to R79). -/
def execJoin (h : ReplyHead) (fields : List Byte) (s : State) : Host.Outcome State Fault Refusal :=
  .next (s.replied (headFrame h (some (0x01 :: fields))))

/-- LEAVE: the station reply that carries it (R25, R102, R88). -/
def execLeave (h : ReplyHead) (fields : List Byte) (s : State) : Host.Outcome State Fault Refusal :=
  .next (s.replied (headFrame h (some (0x02 :: fields))))

/-- GRANT: the station reply that carries it (R25, R103, R49 to R54). -/
def execGrant (h : ReplyHead) (fields : List Byte) (s : State) : Host.Outcome State Fault Refusal :=
  .next (s.replied (headFrame h (some (0x03 :: fields))))

/-- RENEW: the station reply that carries it (R25, R104, R33, R34). -/
def execRenew (h : ReplyHead) (fields : List Byte) (s : State) : Host.Outcome State Fault Refusal :=
  .next (s.replied (headFrame h (some (0x04 :: fields))))

/-- RELEASE: the station reply that carries it (R25, R106, R38). -/
def execRelease (h : ReplyHead) (fields : List Byte) (s : State) : Host.Outcome State Fault Refusal :=
  .next (s.replied (headFrame h (some (0x05 :: fields))))

/-- ATTACH: the station reply that carries it (R25, R107, R45). -/
def execAttach (h : ReplyHead) (fields : List Byte) (s : State) : Host.Outcome State Fault Refusal :=
  .next (s.replied (headFrame h (some (0x06 :: fields))))

/-- DETACH: the station reply that carries it (R25, R108, R45). -/
def execDetach (h : ReplyHead) (fields : List Byte) (s : State) : Host.Outcome State Fault Refusal :=
  .next (s.replied (headFrame h (some (0x07 :: fields))))

/-- QUERY_SLOT: the station reply that carries it (R25, R109). -/
def execQuerySlot (h : ReplyHead) (fields : List Byte) (s : State) : Host.Outcome State Fault Refusal :=
  .next (s.replied (headFrame h (some (0x08 :: fields))))

/-- QUERY_LEASE: the station reply that carries it (R25, R110). -/
def execQueryLease (h : ReplyHead) (fields : List Byte) (s : State) : Host.Outcome State Fault Refusal :=
  .next (s.replied (headFrame h (some (0x09 :: fields))))

/-- LIST_MINE: the station reply that carries it (R25, R111, R112). -/
def execListMine (h : ReplyHead) (fields : List Byte) (s : State) : Host.Outcome State Fault Refusal :=
  .next (s.replied (headFrame h (some (0x0A :: fields))))

/-- CANCEL: the station reply that carries it (R25, R113, R64). -/
def execCancel (h : ReplyHead) (fields : List Byte) (s : State) : Host.Outcome State Fault Refusal :=
  .next (s.replied (headFrame h (some (0x0B :: fields))))

/-- IDLE: a reply that carries no request (R92, R25). -/
def execIdle (h : ReplyHead) (s : State) : Host.Outcome State Fault Refusal :=
  .next (s.replied (headFrame h none))

/-- The body of a request bears one of the eleven kinds (section 5.1). -/
def knownKind : List Byte → Bool
  | [] => false
  | kind :: _ => within 1 kind.toNat 11

/-- UNKNOWN_KIND_REQUEST: a request whose kind is none of the eleven, or that has no kind byte (R92, R96). -/
def execUnknownKindRequest (h : ReplyHead) (body : List Byte) (s : State) : Host.Outcome State Fault Refusal :=
  .next (if knownKind body then s else s.replied (headFrame h (some body)))

end Sys2Proof.Machine
end

