-- ==== Sys2Proof/Machine/TrunkRows.lean ====
section
/-! DEFINITION. The events of the trunk (chapter Trunk Monitor and Audit). -/

namespace Sys2Proof.Machine

/-- TFS_RECOGNISED: a TCLK period in which a TFS is recognised (R149); in UNLOCKED it starts CONFIRMING (R152), elsewhere it is
judged at its place (R150). -/
def execTfsRecognised (tdat : Bool) (s : State) : Host.Outcome State Fault Refusal :=
  .next ((s.sampleTfs true).takeBit true tdat)

/-- FRAME_START: the frame start that ends the frame under way (R150 to R155, R158; log entry 5). -/
def execFrameStart (tfs : Bool) (s : State) : Host.Outcome State Fault Refusal :=
  .next (s.frameStartEvent tfs)

/-- WINDOW_COMPLETE: the frame start that ends frame 1023 (R158, R160, R166; log entry 5); at any other frame no window is
complete. -/
def execWindowComplete (tfs : Bool) (s : State) : Host.Outcome State Fault Refusal :=
  .next (if s.trunk.sync.window?.any Window.complete then s.frameStartEvent tfs else s)

/-- TCLK_LOST: 1 ms without TCLK (R156, R157). -/
def execTclkLost (s : State) : Host.Outcome State Fault Refusal :=
  .next s.tclkLost

/-- TCLK_PERIOD: one TCLK period, whatever it brings (R149, R156, R159). -/
def execTclkPeriod (tfs tdat : Bool) (s : State) : Host.Outcome State Fault Refusal :=
  .next (s.tclkPeriod tfs tdat)

end Sys2Proof.Machine
end

