-- ==== Sys2Proof/Machine/Dispatch.lean ====
section
/-! DEFINITION. One arm per command, each one call of its meaning. -/

namespace Sys2Proof.Machine

def exec (i : Instr) (s : State) : Host.Outcome State Fault Refusal :=
  match i with
  | .powerOnReset => Sys2Proof.Machine.execPowerOnReset s
  | .writeCommand w => Sys2Proof.Machine.execWriteCommand w s
  | .writeAlarmEnable w => Sys2Proof.Machine.execWriteAlarmEnable w s
  | .clearAlarms w => Sys2Proof.Machine.execClearAlarms w s
  | .readSlot fields => Sys2Proof.Machine.execReadSlot fields s
  | .readLease fields => Sys2Proof.Machine.execReadLease fields s
  | .readStation fields => Sys2Proof.Machine.execReadStation fields s
  | .readQueue fields => Sys2Proof.Machine.execReadQueue fields s
  | .readCounts fields => Sys2Proof.Machine.execReadCounts fields s
  | .readPolicy fields => Sys2Proof.Machine.execReadPolicy fields s
  | .setPolicy fields => Sys2Proof.Machine.execSetPolicy fields s
  | .setQuota fields => Sys2Proof.Machine.execSetQuota fields s
  | .houseGrant fields => Sys2Proof.Machine.execHouseGrant fields s
  | .pinOn fields => Sys2Proof.Machine.execPinOn fields s
  | .pinOff fields => Sys2Proof.Machine.execPinOff fields s
  | .revokeSoft fields => Sys2Proof.Machine.execRevokeSoft fields s
  | .revokeImmediate fields => Sys2Proof.Machine.execRevokeImmediate fields s
  | .bar fields => Sys2Proof.Machine.execBar fields s
  | .unbar fields => Sys2Proof.Machine.execUnbar fields s
  | .resize fields => Sys2Proof.Machine.execResize fields s
  | .evict fields => Sys2Proof.Machine.execEvict fields s
  | .clearLeases fields => Sys2Proof.Machine.execClearLeases fields s
  | .softReset fields => Sys2Proof.Machine.execSoftReset fields s
  | .join h fields => Sys2Proof.Machine.execJoin h fields s
  | .leave h fields => Sys2Proof.Machine.execLeave h fields s
  | .grant h fields => Sys2Proof.Machine.execGrant h fields s
  | .renew h fields => Sys2Proof.Machine.execRenew h fields s
  | .release h fields => Sys2Proof.Machine.execRelease h fields s
  | .attach h fields => Sys2Proof.Machine.execAttach h fields s
  | .detach h fields => Sys2Proof.Machine.execDetach h fields s
  | .querySlot h fields => Sys2Proof.Machine.execQuerySlot h fields s
  | .queryLease h fields => Sys2Proof.Machine.execQueryLease h fields s
  | .listMine h fields => Sys2Proof.Machine.execListMine h fields s
  | .cancel h fields => Sys2Proof.Machine.execCancel h fields s
  | .idle h => Sys2Proof.Machine.execIdle h s
  | .unknownKindRequest h body => Sys2Proof.Machine.execUnknownKindRequest h body s
  | .missReport address => Sys2Proof.Machine.execMissReport address s
  | .silenceExpiry address => Sys2Proof.Machine.execSilenceExpiry address s
  | .periodClose report => Sys2Proof.Machine.execPeriodClose report s
  | .termExpiry lease => Sys2Proof.Machine.execTermExpiry lease s
  | .endDeadlineExpiry lease => Sys2Proof.Machine.execEndDeadlineExpiry lease s
  | .coolingEnd slot => Sys2Proof.Machine.execCoolingEnd slot s
  | .waitExpiry ticket => Sys2Proof.Machine.execWaitExpiry ticket s
  | .tfsRecognised tdat => Sys2Proof.Machine.execTfsRecognised tdat s
  | .frameStart tfs => Sys2Proof.Machine.execFrameStart tfs s
  | .windowComplete tfs => Sys2Proof.Machine.execWindowComplete tfs s
  | .tclkLost => Sys2Proof.Machine.execTclkLost s
  | .poll => Sys2Proof.Machine.execPoll s
  | .pollSent => Sys2Proof.Machine.execPollSent s
  | .replyStart => Sys2Proof.Machine.execReplyStart s
  | .replyWindowExpiry => Sys2Proof.Machine.execReplyWindowExpiry s
  | .frameEnd chars => Sys2Proof.Machine.execFrameEnd chars s
  | .thirtyThirdCharacter => Sys2Proof.Machine.execThirtyThirdCharacter s
  | .responseSent => Sys2Proof.Machine.execResponseSent s
  | .tclkPeriod tfs tdat => Sys2Proof.Machine.execTclkPeriod tfs tdat s

end Sys2Proof.Machine
end

