-- ==== Sys2Proof/Machine/Reception.lean ====
section
/-! DEFINITION. Reception on the request line: from the levels of RL_RX to the characters of a frame, and to the commands
REPLY_START, FRAME_END and THIRTY_THIRD_CHARACTER that a frame brings (7.1, 7.2). A level is the one
that the stations put on RL_RX in one REFCLK period, true for mark; the own transmission is not taken from the line (R130).
DESIGN CHOICE: the count of the periods, what follows a framing error, and how a frame on the line is followed while the part
sends, are those of log entry 22. -/

namespace Sys2Proof.Machine

/-! ### Times in REFCLK periods -/

/-- The REFCLK periods of one bit, which is 1 µs (R130). -/
def bitPeriods : Nat := 16

/-- The middle of the bit at a place, 0 for the start bit, counted from the start bit's first period (R130). -/
def middleOf (place : Nat) : Nat := bitPeriods * place + bitPeriods / 2

/-- The periods of a stop bit after the one in which it is sampled. -/
def restOfStop : Nat := bitPeriods / 2 - 1

/-- A start bit this many periods after the middle of the stop bit before it comes after a gap of 15 µs (R131). -/
def lateFrom : Nat := restOfStop + 15 * bitPeriods

/-- With this many periods after the middle of the last stop bit, 30 µs of silence have passed since its end (R131). -/
def silentFrom : Nat := restOfStop + 30 * bitPeriods

/-- The characters a frame may have; the start bit of one more ends its reception (R132). -/
def frameMax : Nat := 32

/-! ### A character -/

/-- The receiver of characters inside a frame. -/
inductive Receiver where
  /-- Between two characters: the level of the period before, and the periods since the stop bit was sampled. -/
  | quiet (was : Bool) (since : Nat)
  /-- Inside a character: whether a gap of 15 µs or more came before it, the periods since its start bit began, and the data
  bits sampled so far, the last of them in bit 7. -/
  | inChar (late : Bool) (period : Nat) (data : Byte)
deriving DecidableEq, Repr

/-- The character that begins at a start bit. -/
def Receiver.start (late : Bool) : Receiver := .inChar late 1 0

/-- A data bit is taken; the bits come least significant first, so each moves the earlier ones down (R130). -/
def takeDataBit (data : Byte) (level : Bool) : Byte := (data >>> 1) ||| (if level then 0x80 else 0)

/-- The period is the middle of one of the eight data bits (R130). -/
def isDataMiddle (period : Nat) : Bool := middleOf 1 ≤ period && period % bitPeriods == bitPeriods / 2

/-- One period of RL_RX inside a frame (R130): a transition from mark to space is a start bit, each later bit is sampled at
its middle, and the stop bit completes the character, a space there being its framing error. -/
def Receiver.sample (level : Bool) : Receiver → Receiver × Option RxChar
  | .quiet was since =>
    if was && !level then (.start (lateFrom ≤ since), none) else (.quiet level (since + 1), none)
  | .inChar late period data =>
    if period = middleOf 9 then (.quiet level 0, some ⟨data, level, late⟩)
    else (.inChar late (period + 1) (if isDataMiddle period then takeDataBit data level else data), none)

/-- The 30 µs of silence after the last stop bit have passed (R131). -/
def Receiver.isSilent : Receiver → Bool
  | .quiet _ since => silentFrom ≤ since
  | .inChar _ _ _ => false

/-- A start bit has just been recognised. -/
def Receiver.hasStarted : Receiver → Bool
  | .quiet _ _ => false
  | .inChar _ period _ => period == 1

/-! ### When the line is listened to -/

/-- The Request Line Controller is in AWAIT_REPLY, where alone a frame it receives begins (R134). -/
def Exchange.awaits : Exchange → Bool
  | .awaitReply _ _ => true
  | _ => false

/-- Characters are taken: in AWAIT_REPLY and RECEIVING, and so never while RL_DE is asserted (R130, R134). -/
def Exchange.listens : Exchange → Bool
  | .awaitReply _ _ => true
  | .receiving _ => true
  | _ => false

/-! ### A frame -/

/-- What reception holds of the line. -/
inductive Reception where
  /-- No frame is on the line; the level of the period before. -/
  | waiting (was : Bool)
  /-- A frame is being received; its characters so far. -/
  | frame (chars : List RxChar) (receiver : Receiver)
  /-- A frame is on the line that is not received: it began outside AWAIT_REPLY, or its reception has been ended (R134). -/
  | passed (receiver : Receiver)
deriving DecidableEq, Repr

/-- A frame that is not received is followed to its end, the 30 µs of silence after it, and no character of it is taken
(R131, R134). -/
def Receiver.pass (receiver : Receiver) (level : Bool) : Reception :=
  if (receiver.sample level).1.isSilent then .waiting level else .passed (receiver.sample level).1

/-- A frame being received (R130 to R132): the silence after the last character is FRAME_END with the characters, and the
start bit of a 33rd character is THIRTY_THIRD_CHARACTER, after which no further character of the frame is taken. -/
def Receiver.receive (chars : List RxChar) (receiver : Receiver) (level : Bool) : Reception × Option Instr :=
  let (receiver', received) := receiver.sample level
  let chars' := chars ++ received.toList
  if receiver'.hasStarted && frameMax ≤ chars.length then (.passed receiver', some .thirtyThirdCharacter)
  else if receiver'.isSilent then (.waiting level, some (.frameEnd chars'))
  else (.frame chars' receiver', none)

/-- One period of RL_RX in an exchange state (R130, R134): the start bit of a frame is REPLY_START in AWAIT_REPLY and begins a
frame that is not received in any other state; a frame under reception when characters are no longer taken is received no
further; and a frame that is not received stays so to its end, whatever state is reached meanwhile. -/
def Reception.sample (x : Exchange) (level : Bool) : Reception → Reception × Option Instr
  | .waiting was =>
    if was && !level then
      if x.awaits then (.frame [] (.start false), some .replyStart) else (.passed (.start false), none)
    else (.waiting level, none)
  | .frame chars receiver =>
    if x.listens then receiver.receive chars level else (receiver.pass level, none)
  | .passed receiver => (receiver.pass level, none)

/-- Reception over several periods, each with the exchange state of the time, and the commands it brings in order. -/
def Reception.run : Reception → List (Exchange × Bool) → Reception × List Instr
  | r, [] => (r, [])
  | r, (x, level) :: periods =>
    let (r', command) := r.sample x level
    let (r'', commands) := r'.run periods
    (r'', command.toList ++ commands)

/-- One period of RL_RX in a state of the block. -/
def State.hear (s : State) (r : Reception) (level : Bool) : Reception × Option Instr := r.sample s.line.exchange level

end Sys2Proof.Machine
end

