-- ==== Sys2Proof/WellFormed.lean ====
section
/-! DEFINITION. The commands the outside can present: what fits the frames and transactions of chapter Boundary Formats,
and the numbers that name a record. -/

namespace Sys2Proof

/-- The bytes after a management command's code fit a WRITE COMMAND (R175). -/
def commandFits (fields : List Byte) : Bool :=
  fields.length + 1 ≤ Config.commandMax

/-- A request (its kind byte and what follows) and the acknowledgment fit the body of a reply frame (R132), whose source is
an address that can be polled (R72). -/
def replyFits (h : ReplyHead) (requestLength : Nat) : Bool :=
  (1 ≤ h.source.toNat && h.source.toNat ≤ Config.stationCount) &&
    (if h.ack.isSome then 1 else 0) + requestLength ≤ Config.bodyMax

/-- The station addresses (R72). -/
def isAddress (a : Nat) : Bool := 1 ≤ a && a ≤ Config.stationCount

/-- The request kinds of section 5.1, by their codes (12.1). -/
def isRequestKind (kind : Byte) : Bool := 1 ≤ kind.toNat && kind.toNat ≤ 11

/-- The command is one that the outside can present, or that names a record the tables have. -/
def Instr.wellFormed : Instr → Bool
  | .powerOnReset => true
  | .writeCommand _ => true
  | .writeAlarmEnable _ => true
  | .clearAlarms _ => true
  | .readSlot f => commandFits f
  | .readLease f => commandFits f
  | .readStation f => commandFits f
  | .readQueue f => commandFits f
  | .readCounts f => commandFits f
  | .readPolicy f => commandFits f
  | .setPolicy f => commandFits f
  | .setQuota f => commandFits f
  | .houseGrant f => commandFits f
  | .pinOn f => commandFits f
  | .pinOff f => commandFits f
  | .revokeSoft f => commandFits f
  | .revokeImmediate f => commandFits f
  | .bar f => commandFits f
  | .unbar f => commandFits f
  | .resize f => commandFits f
  | .evict f => commandFits f
  | .clearLeases f => commandFits f
  | .softReset f => commandFits f
  | .join h f => replyFits h (f.length + 1)
  | .leave h f => replyFits h (f.length + 1)
  | .grant h f => replyFits h (f.length + 1)
  | .renew h f => replyFits h (f.length + 1)
  | .release h f => replyFits h (f.length + 1)
  | .attach h f => replyFits h (f.length + 1)
  | .detach h f => replyFits h (f.length + 1)
  | .querySlot h f => replyFits h (f.length + 1)
  | .queryLease h f => replyFits h (f.length + 1)
  | .listMine h f => replyFits h (f.length + 1)
  | .cancel h f => replyFits h (f.length + 1)
  | .idle h => replyFits h 0
  | .unknownKindRequest h body =>
    replyFits h body.length && match body with
      | [] => true
      | kind :: _ => !isRequestKind kind
  | .missReport a => isAddress a
  | .silenceExpiry a => isAddress a
  | .periodClose report => report.length == Config.slotCount
  | .termExpiry i => 1 ≤ i && i ≤ Config.leaseCount
  | .endDeadlineExpiry i => 1 ≤ i && i ≤ Config.leaseCount
  | .coolingEnd n => 1 ≤ n && n ≤ Config.slotCount
  | .waitExpiry ticket => 1 ≤ ticket && ticket ≤ 255
  | .tfsRecognised _ => true
  | .frameStart _ => true
  | .windowComplete _ => true
  | .tclkLost => true
  | .poll => true
  | .pollSent => true
  | .replyStart => true
  | .replyWindowExpiry => true
  | .frameEnd chars => 1 ≤ chars.length && chars.length ≤ 32
  | .thirtyThirdCharacter => true
  | .responseSent => true
  | .tclkPeriod _ _ => true

end Sys2Proof
end

