-- ==== Sys2Proof/Safety.lean ====
section
/-! DEFINITION. The terms the claims use: which operation a row stands for, what a completed operation leaves, and what the
rules say every record keeps to between two operations. -/

namespace Sys2Proof.Machine

/-! ### Rows and operations -/

/-- The command bytes a management row stands for (12.4); none for a PIN or REVOKE whose selector is the other row's. -/
def commandBytes : Instr → Option (List Byte)
  | .readSlot f => some (0x01 :: f)
  | .readLease f => some (0x02 :: f)
  | .readStation f => some (0x03 :: f)
  | .readQueue f => some (0x04 :: f)
  | .readCounts f => some (0x05 :: f)
  | .readPolicy f => some (0x06 :: f)
  | .setPolicy f => some (0x07 :: f)
  | .setQuota f => some (0x08 :: f)
  | .houseGrant f => some (0x09 :: f)
  | .pinOn f => if otherSelector 0 f then none else some (0x0A :: f)
  | .pinOff f => if otherSelector 1 f then none else some (0x0A :: f)
  | .revokeSoft f => if otherSelector 1 f then none else some (0x0B :: f)
  | .revokeImmediate f => if otherSelector 0 f then none else some (0x0B :: f)
  | .bar f => some (0x0C :: f)
  | .unbar f => some (0x0D :: f)
  | .resize f => some (0x0E :: f)
  | .evict f => some (0x0F :: f)
  | .clearLeases f => some (0x10 :: f)
  | .softReset f => some (0x11 :: f)
  | _ => none

/-- The length 12.4 gives for each command code but that of HOUSE_GRANT. -/
def tableLength : List (Byte × Nat) :=
  [(0x01, 2), (0x02, 2), (0x03, 3), (0x04, 2), (0x05, 1), (0x06, 2), (0x07, 4), (0x08, 3), (0x0A, 4), (0x0B, 4),
    (0x0C, 2), (0x0D, 2), (0x0E, 2), (0x0F, 2), (0x10, 1), (0x11, 1)]

/-- The reply frame a station-reply row stands for (R92); none for an UNKNOWN_KIND_REQUEST that bears one of the eleven
kinds. -/
def replyFrame? : Instr → Option ReplyFrame
  | .join h f => some (headFrame h (some (0x01 :: f)))
  | .leave h f => some (headFrame h (some (0x02 :: f)))
  | .grant h f => some (headFrame h (some (0x03 :: f)))
  | .renew h f => some (headFrame h (some (0x04 :: f)))
  | .release h f => some (headFrame h (some (0x05 :: f)))
  | .attach h f => some (headFrame h (some (0x06 :: f)))
  | .detach h f => some (headFrame h (some (0x07 :: f)))
  | .querySlot h f => some (headFrame h (some (0x08 :: f)))
  | .queryLease h f => some (headFrame h (some (0x09 :: f)))
  | .listMine h f => some (headFrame h (some (0x0A :: f)))
  | .cancel h f => some (headFrame h (some (0x0B :: f)))
  | .idle h => some (headFrame h none)
  | .unknownKindRequest h body => if knownKind body then none else some (headFrame h (some body))
  | _ => none

/-- The operation of the Table Engine a row stands for (R22): its command, its reply under either kind of poll, its miss
report, its expiry, its report. -/
def rowTakes (i : Instr) (op : Operation) : Bool :=
  match op with
  | .command c => commandBytes i == some c
  | .close r => i == .periodClose r
  | .expiry a => i == .silenceExpiry a
  | .station (.miss a) => i == .missReport a
  | .station (.reply f _) => replyFrame? i == some f

/-- The operation has been handed over and waits (R23). -/
def State.waits (s : State) : Operation → Bool
  | .command c => s.port.mailbox == .busy c
  | .close r => s.arbiter.closes.head? == some r
  | .expiry a => s.arbiter.expiries.contains a
  | .station op => s.arbiter.station == some op

/-! ### What a completed operation leaves -/

/-- The state when the Table Engine completes a management command (R176): the tables as the command left them, its response
in the port, DONE; nothing else. -/
def State.responded (s : State) (te : Tables) (code : Byte) (r : CmdResult) (body : List Byte) : State :=
  { s with te := te, port := { s.port with mailbox := .done ⟨code, r, body⟩ } }

/-- The line when a reply operation completes (R139): from WAIT_ENGINE its response is sent, or GAP follows when there is
none; after an abandoned exchange the response is discarded (R146). -/
def Exchange.afterReply (x : Exchange) (a : Nat) (seq : BitVec 4) (body : Option (List Byte)) : Exchange :=
  match x, body with
  | .waitEngine _, some b =>
    .sendResponse (responseFrame a seq b) (Config.charTime * (responseFrame a seq b).length)
  | .waitEngine _, none => .gap 0
  | x, _ => x

/-- The state when the Table Engine completes a station reply (R25, R139): the tables as the reply left them, no reply
waiting, the response on its way; nothing else. -/
def State.repliedWith (s : State) (te : Tables) (a : Nat) (seq : BitVec 4) (body : Option (List Byte)) : State :=
  { s with
    te := te
    arbiter := { s.arbiter with station := none }
    line := { s.line with exchange := s.line.exchange.afterReply a seq body } }

/-- The tables when a valid reply has been heard from a present station: JOINED without misses (R80). -/
def Tables.heard (t : Tables) (a : Nat) (st : Station) : Tables :=
  t.setStation a (some { st with live := .joined, misses := 0 })

/-- The lowest-numbered FREE lease entry (R29). -/
def Tables.lowestFree (t : Tables) (i : Nat) : Prop :=
  1 ≤ i ∧ i ≤ Config.leaseCount ∧ t.lease? i = none ∧ ∀ j, 1 ≤ j → j < i → (t.lease? j).isSome

/-- Every lease entry is in use. -/
def Tables.noneFree (t : Tables) : Prop := ∀ j, 1 ≤ j → j ≤ Config.leaseCount → (t.lease? j).isSome

/-- The lease that a valid handle names (R28). -/
def Tables.names (t : Tables) (index epoch : Byte) (l : Lease) : Prop :=
  1 ≤ index.toNat ∧ index.toNat ≤ Config.leaseCount ∧ t.lease? index.toNat = some l ∧
    (t.entry index.toNat).epoch.toNat = epoch.toNat

/-- A stale handle (R28): the entry is FREE, or its epoch differs. -/
def Tables.stale (t : Tables) (index epoch : Byte) : Prop :=
  1 ≤ index.toNat ∧ index.toNat ≤ Config.leaseCount ∧
    (t.lease? index.toNat = none ∨ (t.entry index.toNat).epoch.toNat ≠ epoch.toNat)

/-- A reply of a present station, in reply to its own poll and with no acknowledgment, is the arbiter's next operation, and
its request is no repetition (R94 steps 1 and 2). -/
def State.requestWaits (s : State) (a : Byte) (seq : BitVec 4) (request : List Byte) (st : Station) : Prop :=
  s.nextOperation? = some (.station (.reply ⟨a.toNat, seq, none, some request⟩ false)) ∧
    s.te.station? a.toNat = some st ∧ seq ≠ st.lastSeq

/-! ### What the records keep to -/

/-- The tables have their 63, 48 and 30 places (R2, R27, R72). -/
def Tables.sized (t : Tables) : Prop :=
  t.slots.length = 63 ∧ t.leases.length = 48 ∧ t.stations.length = 30

/-- Every policy value lies in its range (R182). -/
def Policy.inRange (p : Policy) : Prop :=
  ∀ id ∈ List.range' 1 16, (policyRange id).1 ≤ p.value id ∧ p.value id ≤ (policyRange id).2

/-- The slots from 1 to SA are in the stream area and those above are OUTSIDE (R1). -/
def Tables.areaSplit (t : Tables) : Prop :=
  ∀ n ∈ slotNumbers, t.slot n = .outside ↔ t.policy.streamArea < n

/-- The shape of the table store: places, policy ranges, the stream area (R1, R182). -/
def Tables.shaped (t : Tables) : Prop := t.sized ∧ t.policy.inRange ∧ t.areaSplit

/-- Every COOLING slot has a cool count from 1 to 15 and a linger count below LINGER_LIMIT (R11). -/
def Tables.coolingBounded (t : Tables) : Prop :=
  ∀ n ∈ slotNumbers, ∀ cool linger, t.slotState? n = some (.cooling cool linger) →
    1 ≤ cool ∧ cool ≤ 15 ∧ linger < t.policy.lingerLimit

/-- A notice queue holds at most 4 notices, numbered consecutively modulo 256 up to the number before the next (R117). -/
def Station.noticesNumbered (st : Station) : Prop :=
  st.notices.length ≤ 4 ∧
    ∀ k n, st.notices[k]? = some n → n.number + BitVec.ofNat 8 (st.notices.length - k) = st.nextNotice

/-- The notice queue of every present station is so numbered. -/
def Tables.noticesNumbered (t : Tables) : Prop :=
  ∀ a ∈ addresses, ∀ st, t.station? a = some st → st.noticesNumbered

/-- The pending queue holds at most 16 entries with distinct tickets from 1 to 255, of 1 to 8 slots each, from high priority
to low; the ticket counter stands between 1 and 255 (R55 to R57). -/
def Tables.queueOrdered (t : Tables) : Prop :=
  t.queue.length ≤ 16 ∧ (t.queue.map PendingEntry.ticket).Nodup ∧
    (∀ e ∈ t.queue, 1 ≤ e.ticket ∧ e.ticket ≤ 255 ∧ 1 ≤ e.count ∧ e.count ≤ 8) ∧
    t.queue.Pairwise (fun x y => y.priority ≤ x.priority) ∧ 1 ≤ t.ticket ∧ t.ticket ≤ 255

/-- A slot is LEASED with index i exactly when lease entry i is ACTIVE or ENDING and its slot list contains the slot (R3);
every slot list holds 1 to 8 slots, ascending and distinct, between 1 and SA (R27). -/
def Tables.mapMatchesLeases (t : Tables) : Prop :=
  (∀ n ∈ slotNumbers, ∀ i, t.slotState? n = some (.leased i) ↔ ∃ l, t.lease? i = some l ∧ n ∈ l.slots) ∧
    ∀ i l, t.lease? i = some l →
      1 ≤ l.slots.length ∧ l.slots.length ≤ 8 ∧ l.slots.Pairwise (· < ·) ∧
        ∀ n ∈ l.slots, 1 ≤ n ∧ n ≤ t.policy.streamArea

/-- The leases a station owns. -/
def Tables.leasesOf (t : Tables) (a : Nat) : List Lease :=
  (t.leases.filterMap LeaseEntry.lease).filter fun l => l.owner == a

/-- Every station's counts equal what they count (R74), with at most 2 entries in the queue (R57). -/
def Tables.countsTrue (t : Tables) : Prop :=
  ∀ a ∈ addresses, ∀ st, t.station? a = some st →
    st.held = ((t.leasesOf a).map fun l => l.slots.length).sum ∧ st.leaseCount = (t.leasesOf a).length ∧
      st.queued = (t.queue.filter fun e => e.station == a).length ∧ st.queued ≤ 2

/-- Only a present station, or the house, owns a lease; only a present station has a pending entry; a listener list holds at
most 4 distinct present stations and never the owner (R45, R74). -/
def Tables.namesPresent (t : Tables) : Prop :=
  (∀ i l, t.lease? i = some l →
    (l.owner = Config.house ∨ (t.station? l.owner).isSome) ∧
      l.listeners.length ≤ 4 ∧ l.listeners.Nodup ∧ l.owner ∉ l.listeners ∧ ∀ a ∈ l.listeners, (t.station? a).isSome) ∧
    ∀ e ∈ t.queue, (t.station? e.station).isSome

/-- A pinned lease is ACTIVE (R43), and an ENDING lease has an end deadline from 1 to 15 (R27). -/
def Tables.leasesSound (t : Tables) : Prop :=
  ∀ i l, t.lease? i = some l →
    (l.pinned = true → l.phase = .active) ∧
      ∀ reason deadline notice, l.phase = .ending reason deadline notice → 1 ≤ deadline ∧ deadline ≤ 15

/-- The window fields of R151. -/
def Window.ranged (w : Window) : Prop := w.frame ≤ 1023 ∧ w.counts.length = 63 ∧ ∀ c ∈ w.counts, c ≤ 1024

/-- The fields of the Trunk Monitor lie in the ranges of R151. -/
def Sync.ranged : Sync → Prop
  | .unlocked => True
  | .confirming al good => al.bitPos ≤ 511 ∧ good ≤ 3
  | .locked al w => al.bitPos ≤ 511 ∧ w.ranged
  | .slipping al w bad => al.bitPos ≤ 511 ∧ w.ranged ∧ 1 ≤ bad ∧ bad ≤ 2

/-- The fields of the Trunk Monitor lie in the ranges of R151, with a TCLK watch of at most 1 ms. -/
def Trunk.ranged (tr : Trunk) : Prop := tr.sync.ranged ∧ tr.tclkWatch ≤ 1000

/-- A whole snapshot: 132 bytes that begin with the marker and end with the CRC over the rest (R165). -/
def wholeImage (b : List Byte) : Prop := b.length = 132 ∧ b.head? = some 0xA5 ∧ b = withCrc (b.take 130)

/-- The images of the Beacon Generator are whole, and there are none while the trunk is not held (R166, R169). -/
def State.imagesWhole (s : State) : Prop :=
  (∀ b, s.beacon.current = some b → wholeImage b) ∧ (∀ b, s.beacon.next = some b → wholeImage b) ∧
    (s.trunkHeld = false → s.beacon = Beacon.stop)

end Sys2Proof.Machine
end

