-- ==== Sys2Proof/Certificates/Slice0/Obligations.lean ====
section
/-! DEFINITION. The statements about the machine, in the order of OBLIGATIONS.json. -/

open Sys2Proof Sys2Proof.Machine

/-! ### The step, the arbiter and the handing over -/

/-- A step takes the command at the front of the queue and runs it with the rest of the queue. -/
def Obligations.StepRunsFrontCommand : Prop :=
  ∀ (c : Instr) (rest : List Instr) (s : State), s.pending = c :: rest → step s = exec c { s with pending := rest }

/-- Every command completes and leaves the queue of commands alone: every operation of the Table Engine completes (2.1). That a
command that cannot occur in the state it meets answers a next state too is the model's choice (log entry 1), and so is the
queue that a power-on reset keeps (log entry 17). -/
def Obligations.EveryCommandCompletes : Prop :=
  ∀ (c : Instr) (s : State), ∃ t, exec c s = .next t ∧ t.pending = s.pending

/-- The arbiter's order (section 2.1): a management command, then a period close, then a silence expiry, then a station reply
or miss report, and of several expiries the one of the lowest address. A row whose operation waits out of its turn leaves
every record as it is: the model's choice (log entry 1). With no command waiting, a step takes the arbiter's next operation
as its row does: the model's choice (log entry 2). -/
def Obligations.ArbiterTakesInOrder : Prop :=
  ∀ s : State,
    (∀ c, s.port.mailbox = .busy c → s.nextOperation? = some (.command c)) ∧
    ((∀ c, s.port.mailbox ≠ .busy c) → ∀ r rest, s.arbiter.closes = r :: rest → s.nextOperation? = some (.close r)) ∧
    ((∀ c, s.port.mailbox ≠ .busy c) → s.arbiter.closes = [] → ∀ a rest, s.arbiter.expiries = a :: rest →
      s.nextOperation? = some (.expiry a)) ∧
    ((∀ c, s.port.mailbox ≠ .busy c) → s.arbiter.closes = [] → s.arbiter.expiries = [] → ∀ op,
      s.arbiter.station = some op → s.nextOperation? = some (.station op)) ∧
    (s.arbiter.expiries.Pairwise (· < ·) → ∀ a, s.nextOperation? = some (.expiry a) →
      ∀ b ∈ s.arbiter.expiries, a ≤ b) ∧
    (∀ i op, rowTakes i op = true → s.waits op = true → s.nextOperation? ≠ some op → exec i s = .next s) ∧
    (∀ i op, s.pending = [] → rowTakes i op = true → s.nextOperation? = some op → step s = exec i s)

/-- A management row given before its command has been accepted is the WRITE COMMAND and then the row (log entry 4); when
the port is BUSY with another command, or the command has more than 24 bytes, the row does no more than that rejected
write. A row given before its operation has been handed over stands for what hands it over and then itself (log entry 4):
the end of the reply's frame, the expiry of the reply window, the run-out of a silence timer. A reply row that no exchange
can bring, and a PERIOD_CLOSE that no window has delivered, change nothing (log entry 1). -/
def Obligations.RowsHandOverTheirOperation : Prop :=
  (∀ (i : Instr) (c : List Byte) (s : State), commandBytes i = some c →
    ((∀ b, s.port.mailbox ≠ .busy b) → c.length ≤ 24 →
      ∃ t, exec (.writeCommand ⟨c, true⟩) s = .next t ∧ t.nextOperation? = some (.command c) ∧ exec i s = exec i t) ∧
    ((∃ b, s.port.mailbox = .busy b ∧ b ≠ c) ∨ ((∀ b, s.port.mailbox ≠ .busy b) ∧ 24 < c.length) →
      exec i s = exec (.writeCommand ⟨c, true⟩) s)) ∧
  (∀ (i : Instr) (f : ReplyFrame) (a : Nat) (s : State), replyFrame? i = some f → s.arbiter.station = none →
    s.line.exchange = .receiving a → validReply a (cleanChars f.bytes) = some f →
      ∃ t, exec (.frameEnd (cleanChars f.bytes)) s = .next t ∧
        t.arbiter.station = some (.reply f (a == 0)) ∧ exec i s = exec i t) ∧
  (∀ (i : Instr) (f : ReplyFrame) (a : Nat) (s : State), replyFrame? i = some f → s.arbiter.station = none →
    s.line.exchange = .receiving a → validReply a (cleanChars f.bytes) = none →
      exec i s = exec (.frameEnd (cleanChars f.bytes)) s) ∧
  (∀ (i : Instr) (f : ReplyFrame) (s : State), replyFrame? i = some f →
    (s.arbiter.station = none ∧ (∀ a, s.line.exchange ≠ .receiving a)) ∨
      (∃ op, s.arbiter.station = some op ∧ ∀ o, op ≠ .reply f o) → exec i s = .next s) ∧
  (∀ (a left : Nat) (s : State), a ≠ 0 → s.arbiter.station = none → s.line.exchange = .awaitReply a left →
    ∃ t, exec .replyWindowExpiry s = .next t ∧ t.arbiter.station = some (.miss a) ∧
      exec (.missReport a) s = exec (.missReport a) t) ∧
  (∀ (a : Nat) (s : State), a ∉ s.arbiter.expiries → s.te.isSilent a = true →
    exec (.silenceExpiry a) s = exec (.silenceExpiry a)
      { s with
        te := s.te.modifyStation a fun st => { st with live := .silent 0 }
        arbiter := { s.arbiter with expiries := insertAddress a s.arbiter.expiries } }) ∧
  ∀ (report : List Finding) (s : State), s.arbiter.closes.head? ≠ some report → exec (.periodClose report) s = .next s

/-- The frame of every well-formed station-reply row, sent without error, is read back as that row's reply, after a poll of
its source and after an open poll (12.1, 7.2). What a poll receives as a reply, and what not (7.2, 5.1): no reply from a
character with a framing error, a later character after a late gap, fewer than 7 bytes, a length byte above 25 or other than
the count received, another CRC; a kind other than REPLY, a destination other than 0, a body that disagrees with bits 4 and 5
of byte 3, a source other than the polled address, after an open poll one that is not 1 to 30; from any other frame, the reply
its bytes spell. Characters on RL_RX (7.1), 16 periods to a bit: from a transition from mark to space on, the bits at the
middles of their times, least significant first, are the data, the one after them the stop bit. Frames (7.2), first character
c and then cs, each a gap of mark, its byte and its stop bit, at most 32: REPLY_START, and after 30 µs of silence FRAME_END
with the characters, late after a gap of 15 µs or more; the start bit of a 33rd ends the reception. A frame is received only
when it begins in AWAIT_REPLY (7.3): one that begins in any other state, or whose reception has been ended, brings nothing to
its end, the 30 µs of silence after it, whatever states are reached meanwhile; nothing is received while RL_DE is asserted. That
a start bit needs a mark period after a stop bit sampled as space, and that the frame is followed by the stations' levels while
the part sends, is the model's choice (log entry 22). -/
def Obligations.ReceptionJudgesReplies : Prop :=
  (∀ (i : Instr) (f : ReplyFrame), i.wellFormed = true → replyFrame? i = some f →
    validReply f.source (cleanChars f.bytes) = some f ∧ validReply 0 (cleanChars f.bytes) = some f) ∧
  (∀ (a : Nat) (chars : List RxChar),
    let bytes := chars.map RxChar.data
    let at_ := fun k : Nat => (bytes[k]?).getD 0
    let len := (at_ 4).toNat
    let body := (bytes.drop 5).take len
    let hasRequest := (at_ 3).getLsbD 4
    let hasAck := (at_ 3).getLsbD 5
    let corrupt := (∃ c ∈ chars, c.stopBit = false) ∨ (∃ c ∈ chars.tail, c.lateGap = true) ∨ chars.length < 7 ∨
      25 < len ∨ chars.length ≠ 5 + len + 2 ∨ bytes.drop (5 + len) ≠ crcBytes (bytes.take (5 + len))
    let wrong := at_ 2 ≠ 0x04 ∨ at_ 0 ≠ 0 ∨ (hasAck = true ∧ len = 0) ∨
      (hasRequest = false ∧ (if hasAck then 1 else 0) < len) ∨
      (if a = 0 then at_ 1 = 0 ∨ 30 < (at_ 1).toNat else (at_ 1).toNat ≠ a)
    (corrupt ∨ wrong → validReply a chars = none) ∧
    (¬ corrupt → ¬ wrong → validReply a chars = some ⟨(at_ 1).toNat, (at_ 3).setWidth 4,
      if hasAck then body.head? else none,
      if hasRequest then some (body.drop (if hasAck then 1 else 0)) else none⟩)) ∧
  (∀ (b : Byte) (stop : Bool) (periods : List (Exchange × Bool)),
    let levels := periods.map Prod.snd
    levels.length = 153 → levels[0]? = some false →
    (∀ k, k < 8 → levels[16 * (k + 1) + 8]? = some (b.getLsbD k)) → levels[152]? = some stop →
    (∀ p ∈ periods, p.1.listens = true) →
    (((periods.map Prod.fst)[0]?).map Exchange.awaits = some true →
      (Reception.waiting true).run periods = (.frame [⟨b, stop, false⟩] (.quiet stop 0), [.replyStart])) ∧
    ∀ (chars : List RxChar) (since : Nat), chars.length < 32 →
      (Reception.frame chars (.quiet true since)).run periods =
        (.frame (chars ++ [⟨b, stop, decide (247 ≤ since)⟩]) (.quiet stop 0), [])) ∧
  (∀ (c : Nat × Byte × Bool) (cs : List (Nat × Byte × Bool)),
    let wave := fun x : Nat × Byte × Bool => List.replicate x.1 true ++ List.replicate 16 false ++
      (List.range 8).flatMap (fun k => List.replicate 16 (x.2.1.getLsbD k)) ++ List.replicate 16 x.2.2
    let later := fun x : Nat × Byte × Bool => (⟨x.2.1, x.2.2, decide (240 ≤ x.1)⟩ : RxChar)
    let hears := fun xs : List (Nat × Byte × Bool) =>
      (∀ x ∈ xs.tail, x.1 < 480) ∧ xs.IsChain fun x y => x.2.2 = true ∨ 1 ≤ y.1
    ∀ periods : List (Exchange × Bool),
      let begins := ((periods.map Prod.fst)[c.1]?).map Exchange.awaits
      let listened := ∀ p ∈ periods.drop c.1, p.1.listens = true
      (periods.map Prod.snd = (c :: cs).flatMap wave ++ List.replicate 480 true → hears (c :: cs) →
        (cs.length ≤ 31 → begins = some true → listened → (Reception.waiting true).run periods =
          (.waiting true, [.replyStart, .frameEnd (⟨c.2.1, c.2.2, false⟩ :: cs.map later)])) ∧
        (begins = some false → (Reception.waiting true).run periods = (.waiting true, []))) ∧
      ∀ gap : Nat, cs.length = 31 → hears (c :: cs ++ [(gap, 0, true)]) →
        periods.map Prod.snd = (c :: cs).flatMap wave ++ List.replicate gap true ++ [false] →
        begins = some true → listened → (Reception.waiting true).run periods =
          (.passed (.inChar (decide (240 ≤ gap)) 1 0), [.replyStart, .thirtyThirdCharacter])) ∧
  ∀ (s : State) (r : Reception) (level : Bool),
    (s.line.exchange.awaits = true ↔ ∃ a left, s.line.exchange = .awaitReply a left) ∧
    (s.line.exchange.listens = true ↔
      (∃ a left, s.line.exchange = .awaitReply a left) ∨ ∃ a, s.line.exchange = .receiving a) ∧
    s.hear r level = r.sample s.line.exchange level ∧
    (s.rlDe = true ∨ s.line.exchange.listens = false →
      (s.hear r level).2 = none ∧ ∀ chars receiver, (s.hear r level).1 ≠ .frame chars receiver) ∧
    (∀ chars receiver, s.line.exchange.listens = false →
      s.hear (.frame chars receiver) level = s.hear (.passed receiver) level) ∧
    ∀ receiver, s.hear (.passed receiver) level =
      (match (receiver.sample level).1 with
        | .quiet was since => if 487 ≤ since then .waiting level else .passed (.quiet was since)
        | .inChar late period data => .passed (.inChar late period data), none)

/-! ### Reset and the Management Port -/

/-- What a power-on reset leaves (1.7, 2.8, 3.6, 4.7, 7.6, 8.4, 9.5, 10.4, 10.6). The first clause equates it with the model's
State.reset and the queue of commands kept; of that, the µs phase (log entry 7), the sampled level of TFS (log entry 8), the
form in which the first poll is due as an open poll (log entry 12) and the kept queue (log entry 17) are the model's. -/
def Obligations.PowerOnResetLeaves : Prop :=
  (∀ s : State, exec .powerOnReset s = .next { State.reset with pending := s.pending }) ∧
  (∀ n ∈ List.range' 1 47, State.reset.te.slot n = .inArea (.free false) .quiet) ∧
  (∀ n ∈ List.range' 48 16, State.reset.te.slot n = .outside) ∧
  (∀ i ∈ leaseIndices, State.reset.te.entry i = ⟨0, none⟩) ∧
  (∀ a ∈ addresses, State.reset.te.station? a = none) ∧
  State.reset.te.queue = [] ∧ State.reset.te.ticket = 1 ∧
  (List.range' 1 16).map State.reset.te.policy.value =
    [47, 4, 8, 16, 16, 255, 8, 9375, 0, 40, 150, 3, 3000, 1, 3, 8] ∧
  State.reset.nextOperation? = none ∧
  State.reset.te.mapEpoch = 0 ∧ State.reset.te.reference = State.reset.te.image ∧
  State.reset.line.exchange = .gap 0 ∧ State.reset.rlDe = false ∧ State.reset.rlTx = true ∧
  State.reset.line.schedule.round = 0 ∧ State.reset.line.schedule.last = 0 ∧ State.reset.line.schedule.opens = 0 ∧
  (State.reset.te.choosePoll State.reset.line.schedule).1 = 0 ∧
  State.reset.trunk.sync = .unlocked ∧ State.reset.trunk.tclkWatch = 0 ∧
  State.reset.beacon = ⟨none, none⟩ ∧ State.reset.bcnOe = false ∧
  State.reset.port.mailbox = .idle ∧ State.reset.port.rejected = false ∧
  State.reset.te.alarms = 0 ∧ State.reset.port.enables = 0 ∧ State.reset.alertN = true

/-- WRITE COMMAND is judged by the port state: 1 to 24 bytes in IDLE or DONE are accepted and handed to the Table Engine,
anything else sets REJECTED and changes nothing more. A transaction that ends partway through a byte is discarded (10.1). -/
def Obligations.WriteCommandJudgedByPortState : Prop :=
  ∀ (c : List Byte) (s : State),
    ((∀ b, s.port.mailbox ≠ .busy b) → 1 ≤ c.length → c.length ≤ 24 →
      ∃ t, exec (.writeCommand ⟨c, true⟩) s = .next t ∧
        t = { s with port := { s.port with mailbox := .busy c, rejected := false } } ∧
        t.nextOperation? = some (.command c)) ∧
    ((∀ b, s.port.mailbox ≠ .busy b) → c.length = 0 ∨ 24 < c.length →
      exec (.writeCommand ⟨c, true⟩) s = .next { s with port := { s.port with rejected := true } }) ∧
    (∀ b, s.port.mailbox = .busy b →
      exec (.writeCommand ⟨c, true⟩) s = .next { s with port := { s.port with rejected := true } }) ∧
    exec (.writeCommand ⟨c, false⟩) s = .next s

/-- WRITE ALARM ENABLE replaces the enables whole, CLEAR ALARMS clears each flag whose mask bit is set; bit 7 names no flag
and is read back as clear, bytes after the mask byte are ignored, and without a mask byte, or broken off partway through a byte
(10.1), either is discarded. -/
def Obligations.AlarmMasksActBitByBit : Prop :=
  (∀ (mask : Byte) (more : List Byte) (s : State),
    ∃ e : BitVec 7, exec (.writeAlarmEnable ⟨mask :: more, true⟩) s = .next { s with port := { s.port with enables := e } } ∧
      (∀ k, k < 7 → e.getLsbD k = mask.getLsbD k) ∧
      ({ s with port := { s.port with enables := e } } : State).readAlarms[1]? = some (mask &&& 0x7F)) ∧
  (∀ (mask : Byte) (more : List Byte) (s : State),
    ∃ v : BitVec 7, exec (.clearAlarms ⟨mask :: more, true⟩) s = .next { s with te := { s.te with alarms := v } } ∧
      ∀ k, k < 7 → v.getLsbD k = (s.te.alarms.getLsbD k && !mask.getLsbD k)) ∧
  (∀ s : State, exec (.writeAlarmEnable ⟨[], true⟩) s = .next s ∧ exec (.clearAlarms ⟨[], true⟩) s = .next s) ∧
  ∀ (bytes : List Byte) (s : State),
    exec (.writeAlarmEnable ⟨bytes, false⟩) s = .next s ∧ exec (.clearAlarms ⟨bytes, false⟩) s = .next s

/-- ALERT_N is low exactly while an alarm flag is set whose enable is set. The status byte holds the port state, REJECTED,
whether any flag is set and whether ALERT_N is asserted; READ STATUS, READ ALARMS and READ RESPONSE return what stands in the
port (10.1, 12.4). SDO is undriven in reset and with CS_N high, carries these bytes from the byte after the function byte on
and 00h beyond them, and 00h throughout under a byte that names no function; a transaction by the codes 01h, 05h and 06h is
the row of that write, discarded when it ends partway through a byte, and any other changes nothing (10.1, 12.4). Bytes are
shifted most significant bit first in both directions (10.1). -/
def Obligations.AlertFollowsEnabledFlags : Prop :=
  (∀ s : State, s.alertN = false ↔ ∃ a : Alarm, s.te.alarmSet a = true ∧ s.port.enables.getLsbD a.bit = true) ∧
  (∀ s : State, s.readStatus = [s.statusByte] ∧
    s.statusByte.toNat =
      (match s.port.mailbox with
        | .idle => 0
        | .busy _ => 1
        | .done _ => 2) + (if s.port.rejected then 4 else 0) +
      (if s.te.alarms = 0 then 0 else 8) + (if s.alertN then 0 else 16)) ∧
  (∀ (s : State) (a : Alarm), ∃ flags enables : Byte, s.readAlarms = [flags, enables] ∧
    flags.getLsbD a.bit = s.te.alarmSet a ∧ enables.getLsbD a.bit = s.port.enables.getLsbD a.bit) ∧
  (∀ s : State, ((∀ r, s.port.mailbox ≠ .done r) → s.readResponse = [s.statusByte]) ∧
    ∀ r, s.port.mailbox = .done r →
      s.readResponse = [s.statusByte, r.code, r.result.code, byte r.body.length] ++ r.body) ∧
  (∀ (s : State) (resetN csN : Bool) (function : Byte) (k n j : Nat),
    let shiftsOut := fun b : Byte => s.sdo true false function (8 * (n + 1) + j) = .drives (b.getLsbD (7 - j))
    (resetN = false ∨ csN = true → s.sdo resetN csN function k = .undriven) ∧
    (function.toNat = 0 ∨ 6 < function.toNat → s.sdo true false function k = .drives false) ∧
    (j < 8 → function = 0x02 → shiftsOut ((s.readResponse[n]?).getD 0)) ∧
    (j < 8 → function = 0x03 → shiftsOut ((s.readStatus[n]?).getD 0)) ∧
    (j < 8 → function = 0x04 → shiftsOut ((s.readAlarms[n]?).getD 0))) ∧
  ∀ (s : State) (bytes : List Byte) (extra : List Bool), extra.length < 8 →
    let shiftsIn := fun bs : List Byte => (bs.flatMap fun b => (List.range 8).map fun j => b.getLsbD (7 - j)) ++ extra
    spiTransaction (shiftsIn []) s = .next s ∧
    spiTransaction (shiftsIn (0x01 :: bytes)) s = exec (.writeCommand ⟨bytes, extra.isEmpty⟩) s ∧
    spiTransaction (shiftsIn (0x05 :: bytes)) s = exec (.writeAlarmEnable ⟨bytes, extra.isEmpty⟩) s ∧
    spiTransaction (shiftsIn (0x06 :: bytes)) s = exec (.clearAlarms ⟨bytes, extra.isEmpty⟩) s ∧
    ∀ f : Byte, f ∉ ([0x01, 0x05, 0x06] : List Byte) → spiTransaction (shiftsIn (f :: bytes)) s = .next s

/-! ### Management commands -/

/-- READ_SLOT and READ_LEASE report the record they name and change no table (10.3, 12.4). -/
def Obligations.ReadSlotAndReadLeaseReport : Prop :=
  (∀ (n : Byte) (s : State), s.port.mailbox = .busy [0x01, n] →
    (1 ≤ n.toNat → n.toNat ≤ 63 →
      exec (.readSlot [n]) s = .next (s.responded s.te 0x01 .ok
        (match s.te.slot n.toNat with
          | .outside => [0, 0, 0, 0, 0, 0]
          | .inArea state last =>
            let seen : Byte := if last = .active then 6 else 4
            match state with
            | .free mark => [1, 0, 0, 0, 0, if mark then seen + 1 else seen]
            | .leased i => [2, byte i, 0, 0, 0, seen]
            | .cooling cool linger => [4, 0, byte cool, byte linger, 0, seen]
            | .barred .manager => [5, 0, 0, 0, 1, seen]
            | .barred .linger => [5, 0, 0, 0, 2, seen]))) ∧
    (n.toNat = 0 ∨ 63 < n.toNat → exec (.readSlot [n]) s = .next (s.responded s.te 0x01 .badValue []))) ∧
  ∀ (i : Byte) (s : State), s.port.mailbox = .busy [0x02, i] →
    (1 ≤ i.toNat → i.toNat ≤ 48 →
      (s.te.lease? i.toNat = none →
        exec (.readLease [i]) s = .next (s.responded s.te 0x02 .ok [0, byte (s.te.entry i.toNat).epoch.toNat])) ∧
      ∀ l, s.te.lease? i.toNat = some l →
        exec (.readLease [i]) s = .next (s.responded s.te 0x02 .ok
          ([if l.isEnding then 2 else 1, byte (s.te.entry i.toNat).epoch.toNat, byte l.owner] ++
            slotListBytes l.slots ++ word (l.term.term?.getD 0) ++ word (l.term.remaining?.getD 0) ++
            [((if l.warned then 1 else 0) + (if l.pinned then 2 else 0) + (if l.term = .openEnded then 0 else 4) +
              (match l.phase with
                | .ending _ _ (some _) => 8
                | _ => 0) : Byte), byte l.idleLimit, byte l.idleCount, byte l.listeners.length] ++
            (l.listeners.map byte ++ [0, 0, 0, 0]).take 4 ++
            (match l.phase with
              | .active => [0, 0, 0]
              | .ending reason deadline notice => [reason.code, byte deadline, notice.getD 0])))) ∧
    (i.toNat = 0 ∨ 48 < i.toNat → exec (.readLease [i]) s = .next (s.responded s.te 0x02 .badValue []))

/-- READ_STATION, READ_QUEUE, READ_COUNTS and READ_POLICY report the records as they stand and change no table (10.3,
12.4). -/
def Obligations.OtherReadCommandsReport : Prop :=
  (∀ (a part : Byte) (s : State), s.port.mailbox = .busy [0x03, a, part] → 1 ≤ a.toNat → a.toNat ≤ 30 → part.toNat ≤ 5 →
    (s.te.station? a.toNat = none →
      exec (.readStation [a, part]) s = .next (s.responded s.te 0x03 .noStation [])) ∧
    ∀ st, s.te.station? a.toNat = some st →
      exec (.readStation [a, part]) s = .next (s.responded s.te 0x03 .ok
        (if part = 0 then
          [if st.live = .joined then 1 else 2] ++ tagBytes st.tag ++
            [byte st.quota, byte st.held, byte st.leaseCount, byte st.queued, byte st.misses] ++
            (match st.live with
              | .joined => [0xFF, 0xFF]
              | .silent ms => word ms) ++
            [st.lastSeq.setWidth 8, st.nextNotice, byte st.notices.length, if st.overflow then 1 else 0]
        else if part = 5 then byte st.lastResponse.length :: st.lastResponse
        else ((st.notices[part.toNat - 1]?).map Notice.bytes).getD [0]))) ∧
  (∀ (p : Byte) (s : State), s.port.mailbox = .busy [0x04, p] → p.toNat ≤ 15 → ∀ e, s.te.queue[p.toNat]? = some e →
    exec (.readQueue [p]) s = .next (s.responded s.te 0x04 .ok
      ([byte s.te.queue.length, byte e.ticket, byte e.station, byte e.count,
        (if e.contiguous then 1 else 0) + (if e.anchored then 2 else 0), byte e.priority] ++
        word (e.term.getD 0) ++ [byte e.idleLimit, byte e.wait, byte e.passed]))) ∧
  (∀ (p : Byte) (s : State), s.port.mailbox = .busy [0x04, p] → p.toNat ≤ 15 → s.te.queue[p.toNat]? = none →
    ∃ rest, exec (.readQueue [p]) s = .next (s.responded s.te 0x04 .ok (byte s.te.queue.length :: 0 :: rest))) ∧
  (∀ s : State, s.port.mailbox = .busy [0x05] →
    exec (.readCounts []) s = .next (s.responded s.te 0x05 .ok
      ([byte ((leaseIndices.filter fun i => (s.te.lease? i).isSome).length),
        byte ((s.te.area.filter fun n => (s.te.slotState? n == some (.free false)) || (s.te.slotState? n == some (.free true))).length),
        byte ((s.te.area.filter fun n => s.te.slotState? n == some (.free false)).length),
        byte s.te.policy.streamArea, byte s.te.queue.length,
        byte ((addresses.filter fun a => (s.te.station? a).isSome).length),
        match s.trunk.sync with
        | .unlocked => 0
        | .confirming _ _ => 1
        | .locked _ _ => 2
        | .slipping _ _ _ => 3] ++ word s.te.mapEpoch.toNat))) ∧
  ∀ (id : Byte) (s : State), s.port.mailbox = .busy [0x06, id] →
    (1 ≤ id.toNat → id.toNat ≤ 16 →
      exec (.readPolicy [id]) s = .next (s.responded s.te 0x06 .ok (id :: word (s.te.policy.value id.toNat)))) ∧
    (id.toNat = 0 ∨ 16 < id.toNat → exec (.readPolicy [id]) s = .next (s.responded s.te 0x06 .badValue []))

/-- SET_POLICY stores a value in its range and leaves the others (10.4); id 1 is refused NOT_ALLOWED; a change of LINGER_LIMIT
bars at once the COOLING slots at or above it, raising LINGER when it bars one (1.5); an id of 0 or above 16 and a value out
of its range are refused BAD_VALUE. -/
def Obligations.SetPolicyStoresValue : Prop :=
  ∀ (id high low : Byte) (s : State), s.port.mailbox = .busy [0x07, id, high, low] →
    (id.toNat = 0 ∨ 16 < id.toNat → exec (.setPolicy [id, high, low]) s = .next (s.responded s.te 0x07 .badValue [])) ∧
    (1 ≤ id.toNat → id.toNat ≤ 16 →
    ((wordOf high low < (policyRange id.toNat).1 ∨ (policyRange id.toNat).2 < wordOf high low) →
      exec (.setPolicy [id, high, low]) s = .next (s.responded s.te 0x07 .badValue [])) ∧
    ((policyRange id.toNat).1 ≤ wordOf high low → wordOf high low ≤ (policyRange id.toNat).2 →
      (id = 1 → exec (.setPolicy [id, high, low]) s = .next (s.responded s.te 0x07 .notAllowed [])) ∧
      (id ≠ 1 → ∃ p : Policy, p.value id.toNat = wordOf high low ∧
        (∀ j, j ≠ id.toNat → p.value j = s.te.policy.value j) ∧
        (id ≠ 15 →
          exec (.setPolicy [id, high, low]) s = .next (s.responded { s.te with policy := p } 0x07 .ok [])) ∧
        (id = 15 → ∃ (slots : List Slot) (alarms : BitVec 7),
          exec (.setPolicy [id, high, low]) s =
            .next (s.responded { s.te with policy := p, slots := slots, alarms := alarms } 0x07 .ok []) ∧
          (∀ n, ({ s.te with slots := slots } : Tables).slot n =
            match s.te.slot n with
            | .inArea (.cooling cool linger) last =>
              if wordOf high low ≤ linger then .inArea (.barred .linger) last else .inArea (.cooling cool linger) last
            | v => v) ∧
          alarms = if s.te.slots.any (Slot.lingersAt (wordOf high low)) then s.te.alarms ||| 2 else s.te.alarms))))

/-- SET_QUOTA sets the quota of a present station and then runs a queue pass (4.6); EVICT removes a present station for
OWNER_LOST (4.5); either is answered NO_STATION for an absent address and BAD_VALUE for a number out of range, changing
nothing. -/
def Obligations.SetQuotaAndEvictNameAStation : Prop :=
  (∀ (a quota : Byte) (s : State), s.port.mailbox = .busy [0x08, a, quota] →
    (1 ≤ a.toNat → a.toNat ≤ 30 → quota.toNat ≤ 63 →
      (s.te.station? a.toNat = none →
        exec (.setQuota [a, quota]) s = .next (s.responded s.te 0x08 .noStation [])) ∧
      ∀ st, s.te.station? a.toNat = some st →
        exec (.setQuota [a, quota]) s = .next (s.responded
          (s.te.setStation a.toNat (some { st with quota := quota.toNat })).queuePass 0x08 .ok [])) ∧
    (a.toNat = 0 ∨ 30 < a.toNat ∨ 63 < quota.toNat →
      exec (.setQuota [a, quota]) s = .next (s.responded s.te 0x08 .badValue []))) ∧
  ∀ (a : Byte) (s : State), s.port.mailbox = .busy [0x0F, a] →
    (1 ≤ a.toNat → a.toNat ≤ 30 →
      (s.te.station? a.toNat = none → exec (.evict [a]) s = .next (s.responded s.te 0x0F .noStation [])) ∧
      ((s.te.station? a.toNat).isSome →
        exec (.evict [a]) s = .next (s.responded (s.te.removeStation a.toNat .ownerLost) 0x0F .ok []))) ∧
    (a.toNat = 0 ∨ 30 < a.toNat → exec (.evict [a]) s = .next (s.responded s.te 0x0F .badValue []))

/-- HOUSE_GRANT (10.3): SLOT_IN_USE when a named slot is not FREE, else TABLE_FULL with its alarm when no lease entry is FREE,
else a house lease on the named slots in ascending order, in the lowest FREE entry, its term not clipped. -/
def Obligations.HouseGrantCreatesHouseLease : Prop :=
  ∀ (ns : List Byte) (high low pinned : Byte) (s : State),
    s.port.mailbox = .busy (0x09 :: byte ns.length :: (ns ++ [high, low, pinned])) →
    1 ≤ ns.length → ns.length ≤ 8 → ns.Nodup → pinned.toNat ≤ 1 →
    (∀ n ∈ ns, 1 ≤ n.toNat ∧ n.toNat ≤ 63 ∧ n.toNat ≤ s.te.policy.streamArea) →
    ((∃ n ∈ ns, ∀ mark, s.te.slotState? n.toNat ≠ some (.free mark)) →
      exec (.houseGrant (byte ns.length :: (ns ++ [high, low, pinned]))) s =
        .next (s.responded s.te 0x09 .slotInUse [])) ∧
    ((∀ n ∈ ns, ∃ mark, s.te.slotState? n.toNat = some (.free mark)) → s.te.noneFree →
      exec (.houseGrant (byte ns.length :: (ns ++ [high, low, pinned]))) s =
        .next (s.responded { s.te with alarms := s.te.alarms ||| 16 } 0x09 .tableFull [])) ∧
    ((∀ n ∈ ns, ∃ mark, s.te.slotState? n.toNat = some (.free mark)) → ∀ i, s.te.lowestFree i →
      ∃ slots : List Nat, slots.Pairwise (· < ·) ∧ (∀ n, n ∈ slots ↔ ∃ b ∈ ns, b.toNat = n) ∧
        exec (.houseGrant (byte ns.length :: (ns ++ [high, low, pinned]))) s =
          .next (s.responded
            (s.te.createLease i
              { owner := 31, slots := slots,
                term := if wordOf high low = 0 then .openEnded else .periods (wordOf high low) (wordOf high low),
                warned := false, idleLimit := 0, idleCount := 0, pinned := pinned == 1, listeners := [],
                phase := .active })
            0x09 .ok ([byte i, byte (s.te.entry i).epoch.toNat] ++ slotListBytes slots ++ [high, low])))

/-- PIN acts by the lease's state (2.6): on an ACTIVE lease it sets or clears the pin, with the idle count back to 0 when
that changes it; an ENDING lease is refused NOT_ALLOWED and a stale handle STALE_HANDLE. A soft REVOKE takes an ACTIVE
lease into ENDING(REVOKED) without its pin and turns the reason of an ENDING lease to REVOKED, keeping its deadline and
end notice number; an immediate one retires the lease, telling its owner (2.3.3). A row given
with the selector of its companion row stands for no command: the model's choice (log entry 3). That an epoch byte above 0Fh
makes a handle stale is the model's choice (log entry 19). -/
def Obligations.PinAndRevokeActOnLease : Prop :=
  (∀ (i e : Byte) (s : State),
    exec (.pinOn [i, e, 0]) s = .next s ∧ exec (.pinOff [i, e, 1]) s = .next s ∧
      exec (.revokeSoft [i, e, 1]) s = .next s ∧ exec (.revokeImmediate [i, e, 0]) s = .next s) ∧
  (∀ (i e on : Byte) (row : Instr) (s : State),
    (row = .pinOn [i, e, on] ∧ on = 1 ∨ row = .pinOff [i, e, on] ∧ on = 0) → s.port.mailbox = .busy [0x0A, i, e, on] →
    (∀ l, s.te.names i e l →
      (l.phase = .active → l.pinned = (on == 1) → exec row s = .next (s.responded s.te 0x0A .ok [i, e, on])) ∧
      (l.phase = .active → l.pinned ≠ (on == 1) →
        exec row s = .next (s.responded
          (s.te.setLease i.toNat { l with pinned := on == 1, idleCount := 0 }) 0x0A .ok [i, e, on])) ∧
      (l.phase ≠ .active → exec row s = .next (s.responded s.te 0x0A .notAllowed []))) ∧
    (s.te.stale i e → exec row s = .next (s.responded s.te 0x0A .staleHandle [])) ∧
    (i.toNat = 0 ∨ 48 < i.toNat → exec row s = .next (s.responded s.te 0x0A .badValue []))) ∧
  (∀ (i e : Byte) (s : State), s.port.mailbox = .busy [0x0B, i, e, 0] →
    (∀ l, s.te.names i e l →
      (l.phase = .active →
        exec (.revokeSoft [i, e, 0]) s = .next (s.responded
          (s.te.enterEnding i.toNat { l with pinned := false } .revoked) 0x0B .ok [i, e, 2, 2])) ∧
      ∀ reason deadline notice, l.phase = .ending reason deadline notice →
        exec (.revokeSoft [i, e, 0]) s = .next (s.responded
          (s.te.setLease i.toNat { l with phase := .ending .revoked deadline notice }) 0x0B .ok [i, e, 2, 2])) ∧
    (s.te.stale i e → exec (.revokeSoft [i, e, 0]) s = .next (s.responded s.te 0x0B .staleHandle []))) ∧
  ∀ (i e : Byte) (s : State), s.port.mailbox = .busy [0x0B, i, e, 1] →
    (∀ l, s.te.names i e l →
      exec (.revokeImmediate [i, e, 1]) s = .next (s.responded
        (s.te.retire i.toNat l .revoked true) 0x0B .ok [i, e, 0, 0])) ∧
    (s.te.stale i e → exec (.revokeImmediate [i, e, 1]) s = .next (s.responded s.te 0x0B .staleHandle []))

/-- BAR acts by the slot's state: FREE and COOLING slots become BARRED(MANAGER), a LEASED slot is refused SLOT_IN_USE, a
BARRED one keeps its reason, and a number outside the stream area is refused BAD_VALUE; nothing else changes. -/
def Obligations.BarFollowsSlotState : Prop :=
  ∀ (n : Byte) (s : State), s.port.mailbox = .busy [0x0C, n] →
    (n.toNat = 0 ∨ 63 < n.toNat ∨ s.te.policy.streamArea < n.toNat →
      exec (.bar [n]) s = .next (s.responded s.te 0x0C .badValue [])) ∧
    (1 ≤ n.toNat → n.toNat ≤ 63 → n.toNat ≤ s.te.policy.streamArea → ∀ last,
      (∀ mark, s.te.slot n.toNat = .inArea (.free mark) last →
        exec (.bar [n]) s = .next (s.responded
          (s.te.setSlot n.toNat (.inArea (.barred .manager) last)) 0x0C .ok [])) ∧
      (∀ cool linger, s.te.slot n.toNat = .inArea (.cooling cool linger) last →
        exec (.bar [n]) s = .next (s.responded
          (s.te.setSlot n.toNat (.inArea (.barred .manager) last)) 0x0C .ok [])) ∧
      (∀ i, s.te.slot n.toNat = .inArea (.leased i) last →
        exec (.bar [n]) s = .next (s.responded s.te 0x0C .slotInUse [])) ∧
      ∀ reason, s.te.slot n.toNat = .inArea (.barred reason) last →
        exec (.bar [n]) s = .next (s.responded s.te 0x0C .ok []))

/-- UNBAR makes a BARRED slot FREE without a mark and then runs a queue pass; a slot that is FREE, LEASED or COOLING is
refused NOT_ALLOWED and a number outside the stream area BAD_VALUE, changing nothing. -/
def Obligations.UnbarFreesAndPasses : Prop :=
  ∀ (n : Byte) (s : State), s.port.mailbox = .busy [0x0D, n] →
    (n.toNat = 0 ∨ 63 < n.toNat ∨ s.te.policy.streamArea < n.toNat →
      exec (.unbar [n]) s = .next (s.responded s.te 0x0D .badValue [])) ∧
    (1 ≤ n.toNat → n.toNat ≤ 63 → n.toNat ≤ s.te.policy.streamArea → ∀ last,
      (∀ reason, s.te.slot n.toNat = .inArea (.barred reason) last →
        exec (.unbar [n]) s = .next (s.responded
          (s.te.setSlot n.toNat (.inArea (.free false) last)).queuePass 0x0D .ok [])) ∧
      (∀ mark, s.te.slot n.toNat = .inArea (.free mark) last →
        exec (.unbar [n]) s = .next (s.responded s.te 0x0D .notAllowed [])) ∧
      (∀ i, s.te.slot n.toNat = .inArea (.leased i) last →
        exec (.unbar [n]) s = .next (s.responded s.te 0x0D .notAllowed [])) ∧
      ∀ cool linger, s.te.slot n.toNat = .inArea (.cooling cool linger) last →
        exec (.unbar [n]) s = .next (s.responded s.te 0x0D .notAllowed []))

/-- RESIZE moves SA (1.6): a value outside 8 to 63 is refused, the present value changes nothing, a shrink is refused
AREA_IN_USE or makes the slots above OUTSIDE and refuses NO_ROOM the entries no longer possible, a grow makes the slots taken
in FREE and quiet and then runs a queue pass. -/
def Obligations.ResizeMovesBoundary : Prop :=
  ∀ (area : Byte) (s : State), s.port.mailbox = .busy [0x0E, area] →
    (area.toNat < 8 ∨ 63 < area.toNat →
      exec (.resize [area]) s = .next (s.responded s.te 0x0E .badValue [])) ∧
    (8 ≤ area.toNat → area.toNat ≤ 63 → s.te.sized →
      (area.toNat = s.te.policy.streamArea → exec (.resize [area]) s = .next (s.responded s.te 0x0E .ok [])) ∧
      ((∃ n last, area.toNat < n ∧ n ≤ s.te.policy.streamArea ∧
          ((∃ i, s.te.slot n = .inArea (.leased i) last) ∨
            ∃ cool linger, s.te.slot n = .inArea (.cooling cool linger) last)) →
        exec (.resize [area]) s = .next (s.responded s.te 0x0E .areaInUse [])) ∧
      (area.toNat < s.te.policy.streamArea →
        (∀ n last, area.toNat < n → n ≤ s.te.policy.streamArea →
          (∀ i, s.te.slot n ≠ .inArea (.leased i) last) ∧
            ∀ cool linger, s.te.slot n ≠ .inArea (.cooling cool linger) last) →
        ∃ slots : List Slot,
          let smaller : Tables :=
            { s.te with slots := slots, policy := { s.te.policy with streamArea := area.toNat } }
          (∀ n, smaller.slot n =
            if area.toNat < n ∧ n ≤ s.te.policy.streamArea then .outside else s.te.slot n) ∧
          exec (.resize [area]) s = .next (s.responded
            (smaller.refuseEntries (fun e => !smaller.possible e.count e.contiguous) .noRoom) 0x0E .ok [])) ∧
      (s.te.policy.streamArea < area.toNat →
        ∃ slots : List Slot,
          let larger : Tables :=
            { s.te with slots := slots, policy := { s.te.policy with streamArea := area.toNat } }
          (∀ n, larger.slot n =
            if s.te.policy.streamArea < n ∧ n ≤ area.toNat then .inArea (.free false) .quiet else s.te.slot n) ∧
          exec (.resize [area]) s = .next (s.responded larger.queuePass 0x0E .ok [])))

/-- CLEAR_LEASES retires every lease in ascending order of index with reason CLEARED, listeners and owners told, and then
removes every pending entry in queue order, each with a REFUSED(CLEARED) notice to its station (2.4, 3.4): every lease entry
is freed, its epoch raised, every LEASED slot turns to COOLING with a full count, and the queue is empty; stations stay present with their quotas, and every other slot, every policy value, the epoch of a FREE
entry, the ticket counter and the beacon stay as they were. -/
def Obligations.ClearLeasesEmptiesLeasesAndQueue : Prop :=
  ∀ s : State, s.port.mailbox = .busy [0x10] → s.te.shaped → s.te.mapMatchesLeases → s.te.queueOrdered →
    ∃ te : Tables, exec (.clearLeases []) s = .next (s.responded te 0x10 .ok []) ∧
      (∀ i ∈ leaseIndices, te.entry i =
        ⟨if (s.te.lease? i).isSome then (s.te.entry i).epoch + 1 else (s.te.entry i).epoch, none⟩) ∧
      (∀ n ∈ slotNumbers, te.slot n =
        match s.te.slot n with
        | .inArea (.leased _) last => .inArea (.cooling s.te.policy.coolPeriods 0) last
        | v => v) ∧
      te.queue = [] ∧ te.ticket = s.te.ticket ∧ te.policy = s.te.policy ∧ te.mapEpoch = s.te.mapEpoch ∧
      te.reference = s.te.reference ∧
      (∀ a, (te.station? a).map Station.quota = (s.te.station? a).map Station.quota) ∧
      ∃ retired : Tables,
        retired = (List.range' 1 48).foldl (fun u i => match s.te.lease? i with
          | none => u
          | some l => u.retire i l .cleared true) s.te ∧
        te = s.te.queue.foldl (fun u e => (u.modifyStation e.station fun st => { st with queued := st.queued - 1 }).post
          e.station (.refused e.ticket .cleared)) { retired with queue := [] }

/-- SOFT_RESET frees every lease entry in use with its epoch raised, frees the stream area, empties the queue and the station
table, raises the map epoch, clears the alarm flags, discards the next image, and has the Request Line Controller abandon its
exchange, finishing the character being sent before GAP (7.6; its form is log entry 14), and begin again with an open poll;
with bytes beyond its code it is refused BAD_COMMAND. -/
def Obligations.SoftResetEmptiesTables : Prop :=
  (∀ s : State, s.port.mailbox = .busy [0x11] → ∃ t, exec (.softReset []) s = .next t ∧
    (∀ i, t.te.lease? i = none ∧
      (t.te.entry i).epoch = if (s.te.lease? i).isSome then (s.te.entry i).epoch + 1 else (s.te.entry i).epoch) ∧
    (∀ n ∈ slotNumbers, t.te.slot n =
      if n ≤ s.te.policy.streamArea then .inArea (.free false) .quiet else .outside) ∧
    t.te.queue = [] ∧ t.te.ticket = s.te.ticket ∧ (∀ a, t.te.station? a = none) ∧ t.te.policy = s.te.policy ∧
    t.te.mapEpoch = s.te.mapEpoch + 1 ∧ t.te.reference = t.te.image ∧
    t.te.alarms = 0 ∧ t.alertN = true ∧ t.port = { s.port with mailbox := .done ⟨0x11, .ok, []⟩ } ∧
    t.beacon = ⟨s.beacon.current, none⟩ ∧ t.trunk = s.trunk ∧ t.arbiter = s.arbiter ∧ t.usPhase = s.usPhase ∧
    (∀ elapsed, s.line.exchange = .gap elapsed → t.line.exchange = .gap elapsed ∧ t.rlDe = false) ∧
    (s.rlDe = false → (∀ elapsed, s.line.exchange ≠ .gap elapsed) → t.line.exchange = .gap 0 ∧ t.rlDe = false) ∧
    (∀ frame left k b j, ((∃ a w, s.line.exchange = .sendPoll a frame w left) ∨ s.line.exchange = .sendResponse frame left) →
      frame[k]? = some b → j < 10 → left + (10 * k + j) = 10 * frame.length →
      t.line.exchange = .finishChar b (10 - j) ∧ t.rlDe = true ∧ t.rlTx = s.rlTx) ∧
    (∀ b left, s.line.exchange = .finishChar b left → t.line.exchange = .finishChar b left) ∧ t.line.schedule.round = 0 ∧
    t.line.schedule.last = 0 ∧ t.line.schedule.opens = 0 ∧ (t.te.choosePoll t.line.schedule).1 = 0 ∧
    t.pending = s.pending) ∧
  ∀ (b : Byte) (more : List Byte) (s : State), s.port.mailbox = .busy (0x11 :: b :: more) →
    exec (.softReset (b :: more)) s = .next (s.responded s.te 0x11 .badCommand [])

/-- A command refused at the first two steps of the check order is answered with the refusal and an empty body and changes no
table (10.3): BAD_COMMAND for a code that names no command or a length that is not the code's, BAD_VALUE for a handle, a selector, a part, a
queue position or a HOUSE_GRANT that is not good. One whose code names no command has no row; the block takes it by itself (log entry 3). -/
def Obligations.MalformedCommandsRefused : Prop :=
  (∀ (i : Instr) (c : List Byte) (r : CmdResult) (s : State), commandBytes i = some c → s.port.mailbox = .busy c →
    parseCommand s.te.policy.streamArea c = .bad r → exec i s = .next (s.responded s.te (c.headD 0) r [])) ∧
  (∀ (c : List Byte) (r : CmdResult) (s : State), s.pending = [] → s.port.mailbox = .busy c →
    parseCommand s.te.policy.streamArea c = .bad r → step s = .next (s.responded s.te (c.headD 0) r [])) ∧
  (∀ (area : Nat) (code : Byte) (fields : List Byte), code.toNat = 0 ∨ 0x11 < code.toNat →
    parseCommand area (code :: fields) = .bad .badCommand) ∧
  (∀ (area : Nat) (code : Byte) (n : Nat) (fields : List Byte), (code, n) ∈ tableLength → fields.length + 1 ≠ n →
    parseCommand area (code :: fields) = .bad .badCommand) ∧
  (∀ (area : Nat) (i e v : Byte), i.toNat = 0 ∨ 48 < i.toNat ∨ 1 < v.toNat →
    parseCommand area [0x0A, i, e, v] = .bad .badValue ∧ parseCommand area [0x0B, i, e, v] = .bad .badValue) ∧
  (∀ (area : Nat) (a part : Byte), a.toNat = 0 ∨ 30 < a.toNat ∨ 5 < part.toNat →
    parseCommand area [0x03, a, part] = .bad .badValue) ∧
  (∀ (area : Nat) (position : Byte), 15 < position.toNat → parseCommand area [0x04, position] = .bad .badValue) ∧
  (∀ area : Nat, parseCommand area [0x09] = .bad .badCommand) ∧
  ∀ (area : Nat) (count : Byte) (rest : List Byte),
    (count.toNat = 0 ∨ 8 < count.toNat ∨ rest.length ≠ count.toNat + 3 ∨
      (∃ n ∈ rest.take count.toNat, n.toNat = 0 ∨ area < n.toNat) ∨ ¬ (rest.take count.toNat).Nodup ∨
      ∃ b, rest.getLast? = some b ∧ 1 < b.toNat) →
    parseCommand area (0x09 :: count :: rest) = .bad .badValue

/-! ### Station requests -/

/-- The four cases of a JOIN (4.3, 5.4): a first join, in reply to either kind of poll; a claim on an address held under
another tag, which changes no table; a rejoin, in reply to either kind; a repeated JOIN. At a rejoin every ENDING lease the
station owns keeps its reason and its deadline and loses its end notice number (2.3.1), and every other lease and every epoch
stays as it is. -/
def Obligations.JoinFourCases : Prop :=
  ∀ (a : Byte) (seq : BitVec 4) (b0 b1 b2 b3 : Byte) (openPoll : Bool) (s : State),
    s.nextOperation? = some (.station (.reply ⟨a.toNat, seq, none, some [0x01, b0, b1, b2, b3]⟩ openPoll)) →
    (s.te.station? a.toNat = none →
      exec (.join ⟨a, seq, none⟩ [b0, b1, b2, b3]) s = .next (s.repliedWith
        (s.te.setStation a.toNat (some
          { live := .joined, tag := b0 ++ b1 ++ b2 ++ b3, quota := s.te.policy.defaultQuota, held := 0, leaseCount := 0,
            queued := 0, misses := 0, lastSeq := seq, lastResponse := [0x01, 0x00, byte s.te.policy.defaultQuota],
            nextNotice := 0, notices := [], overflow := false }))
        a.toNat seq (some [0x01, 0x00, byte s.te.policy.defaultQuota]))) ∧
    ∀ st, s.te.station? a.toNat = some st →
      (st.tag ≠ b0 ++ b1 ++ b2 ++ b3 →
        exec (.join ⟨a, seq, none⟩ [b0, b1, b2, b3]) s = .next (s.repliedWith s.te a.toNat seq
          (if openPoll then none else some ([0x01, 0x0F] ++ tagBytes st.tag)))) ∧
      (st.tag = b0 ++ b1 ++ b2 ++ b3 → seq ≠ st.lastSeq →
        ∃ te, te = ({ s.te with
            queue := s.te.queue.filter fun e => e.station != a.toNat
            leases := s.te.leases.map fun e => ({ e with
              lease := e.lease.map fun l =>
                match l.phase with
                | .active => l
                | .ending reason deadline _ =>
                  if l.owner = a.toNat then { l with phase := .ending reason deadline none } else l } : LeaseEntry)
            } : Tables).setStation a.toNat
            (some { st with
              live := .joined, misses := 0, queued := 0, notices := [], overflow := true, lastSeq := seq,
              lastResponse := [0x01, 0x00, byte st.quota] }) ∧
          exec (.join ⟨a, seq, none⟩ [b0, b1, b2, b3]) s = .next (s.repliedWith
            (if s.te.queue.any fun e => e.station == a.toNat && e.anchored then te.queuePass else te)
            a.toNat seq (some [0x01, 0x00, byte st.quota]))) ∧
      (st.tag = b0 ++ b1 ++ b2 ++ b3 → seq = st.lastSeq →
        exec (.join ⟨a, seq, none⟩ [b0, b1, b2, b3]) s = .next
          (if openPoll then s.repliedWith s.te a.toNat seq none
            else s.repliedWith (s.te.heard a.toNat st) a.toNat seq (some st.lastResponse)))

/-- LEAVE removes the station for OWNER_LEFT and is answered OK, with nothing stored (4.5, 5.4). -/
def Obligations.LeaveRemovesStation : Prop :=
  ∀ (a : Byte) (seq : BitVec 4) (st : Station) (s : State), s.requestWaits a seq [0x02] st →
    exec (.leave ⟨a, seq, none⟩ []) s = .next (s.repliedWith
      ((s.te.heard a.toNat st).removeStation a.toNat .ownerLeft) a.toNat seq (some [0x02, 0x00])) ∧
    (s.te.removeStation a.toNat .ownerLeft).station? a.toNat = none

/-- A GRANT within the quota that fits, with no anchored entry queued, is granted at once (3.1): an ACTIVE lease in the lowest
FREE entry on the slots of the allocation choice, the term clipped, answered with the handle, the slots and the term. -/
def Obligations.GrantAtOnce : Prop :=
  ∀ (a count flags priority high low idle : Byte) (seq : BitVec 4) (st : Station) (slots : List Nat) (i : Nat) (s : State),
    s.requestWaits a seq [0x03, count, flags, priority, high, low, idle] st →
    1 ≤ count.toNat → count.toNat ≤ 8 → flags.toNat ≤ 3 → priority.toNat ≤ 3 →
    st.held + count.toNat ≤ st.quota → (∀ e ∈ s.te.queue, e.anchored = false) →
    s.te.choice count.toNat (flags.getLsbD 0) = some slots → s.te.lowestFree i →
    ∃ term : Option Nat, term = s.te.policy.clip (wordOf high low) ∧
      exec (.grant ⟨a, seq, none⟩ [count, flags, priority, high, low, idle]) s = .next (s.repliedWith
        (((s.te.heard a.toNat st).createLease i
          { owner := a.toNat, slots := slots, term := .ofTerm term, warned := false, idleLimit := idle.toNat, idleCount := 0,
            pinned := false, listeners := [], phase := .active }).storeResponse a.toNat seq
          ([0x03, 0x00, byte i, byte (s.te.entry i).epoch.toNat] ++ slotListBytes slots ++ termBytes term))
        a.toNat seq
        (some ([0x03, 0x00, byte i, byte (s.te.entry i).epoch.toNat] ++ slotListBytes slots ++ termBytes term)))

/-- A GRANT is answered by the grant decision, and what one that is not granted at once is answered (3.1): QUOTA above the quota; otherwise WAIT with a new entry, or
QUEUE_FULL with its alarm, when it is possible and may wait; TABLE_FULL with its alarm when only a lease entry is wanting;
NO_ROOM with the grantable count in every other case. -/
def Obligations.GrantNotAtOnce : Prop :=
  (∀ (a count flags priority high low idle : Byte) (seq : BitVec 4) (st : Station) (s : State),
    s.requestWaits a seq [0x03, count, flags, priority, high, low, idle] st →
    1 ≤ count.toNat → count.toNat ≤ 8 → flags.toNat ≤ 3 → priority.toNat ≤ 3 →
    ∃ (te : Tables) (answer : Answer),
      (te, answer) = (s.te.heard a.toNat st).grantDecision a.toNat { st with live := .joined, misses := 0 }
        ⟨count.toNat, flags.getLsbD 0, flags.getLsbD 1, priority.toNat, wordOf high low, idle.toNat⟩ ∧
      exec (.grant ⟨a, seq, none⟩ [count, flags, priority, high, low, idle]) s = .next (s.repliedWith
        (te.storeResponse a.toNat seq (0x03 :: answer.result.code :: answer.contents)) a.toNat seq
        (some (0x03 :: answer.result.code :: answer.contents)))) ∧
  ∀ (a : Nat) (st : Station) (g : GrantAsk) (t : Tables),
    (st.quota < st.held + g.count → t.grantDecision a st g = (t, ⟨.quota, []⟩)) ∧
    (st.held + g.count ≤ st.quota →
      (∃ e ∈ t.queue, e.anchored = true) ∨ t.choice g.count g.contiguous = none ∨ t.noneFree →
      (t.possible g.count g.contiguous = true → g.wait = true →
        (t.queue.length < 16 → st.queued < 2 →
          t.grantDecision a st g = ((t.enqueue a g).1, ⟨.wait, [byte (t.enqueue a g).2]⟩)) ∧
        (16 ≤ t.queue.length ∨ 2 ≤ st.queued →
          t.grantDecision a st g = ({ t with alarms := t.alarms ||| 32 }, ⟨.queueFull, []⟩))) ∧
      (t.possible g.count g.contiguous = false ∨ g.wait = false →
        (g.wait = false → (t.choice g.count g.contiguous).isSome → (∀ e ∈ t.queue, e.anchored = false) →
          t.grantDecision a st g = ({ t with alarms := t.alarms ||| 16 }, ⟨.tableFull, []⟩)) ∧
        (g.wait = true ∨ t.choice g.count g.contiguous = none ∨ (∃ e ∈ t.queue, e.anchored = true) →
          t.grantDecision a st g = (t, ⟨.noRoom,
            [byte ((t.area.filter fun n => t.slotState? n == some (.free false)).length)]⟩))))

/-- A RENEW of an own lease that is ACTIVE or ENDING(EXPIRED) gives it the clipped term afresh and makes it ACTIVE,
unwarned, with everything else kept; one of an ENDING(REVOKED) or ENDING(IDLE) lease is refused LEASE_ENDING, one of
another owner's lease NOT_OWNER, a stale handle STALE_HANDLE (2.3.2, 5.6). A RELEASE of an own lease retires it with
reason RELEASED in any state, the owner not told; another owner's lease is refused NOT_OWNER and a stale handle
STALE_HANDLE (5.7). That an epoch byte above 0Fh makes a handle stale is the model's choice (log entry 19). -/
def Obligations.RenewAndReleaseNeedOwnership : Prop :=
  (∀ (a i e high low : Byte) (seq : BitVec 4) (st : Station) (s : State),
    s.requestWaits a seq [0x04, i, e, high, low] st →
    let refused := fun code : Byte => (Host.Outcome.next (s.repliedWith
      ((s.te.heard a.toNat st).storeResponse a.toNat seq [0x04, code]) a.toNat seq (some [0x04, code])) :
      Host.Outcome State Fault Refusal)
    (s.te.stale i e → exec (.renew ⟨a, seq, none⟩ [i, e, high, low]) s = refused 0x06) ∧
    ∀ l, s.te.names i e l →
      (l.owner ≠ a.toNat → exec (.renew ⟨a, seq, none⟩ [i, e, high, low]) s = refused 0x07) ∧
      (l.owner = a.toNat → (∃ reason d n, l.phase = .ending reason d n ∧ reason ≠ .expired) →
        exec (.renew ⟨a, seq, none⟩ [i, e, high, low]) s = refused 0x08) ∧
      (l.owner = a.toNat → (l.phase = .active ∨ ∃ d n, l.phase = .ending .expired d n) →
        ∃ term : Option Nat,
          term = (if wordOf high low = 0 then (if s.te.policy.openTerm then none else some s.te.policy.maxTerm)
            else if s.te.policy.maxTerm < wordOf high low then some s.te.policy.maxTerm else some (wordOf high low)) ∧
          exec (.renew ⟨a, seq, none⟩ [i, e, high, low]) s = .next (s.repliedWith
            (((s.te.heard a.toNat st).setLease i.toNat
              { l with
                term := match term with
                  | none => .openEnded
                  | some n => .periods n n
                warned := false, phase := .active }).storeResponse a.toNat seq ([0x04, 0x00, i, e] ++ termBytes term))
            a.toNat seq (some ([0x04, 0x00, i, e] ++ termBytes term))))) ∧
  ∀ (a i e : Byte) (seq : BitVec 4) (st : Station) (s : State), s.requestWaits a seq [0x05, i, e] st →
    (s.te.stale i e → exec (.release ⟨a, seq, none⟩ [i, e]) s = .next (s.repliedWith
      ((s.te.heard a.toNat st).storeResponse a.toNat seq [0x05, 0x06]) a.toNat seq (some [0x05, 0x06]))) ∧
    ∀ l, s.te.names i e l →
      (l.owner ≠ a.toNat → exec (.release ⟨a, seq, none⟩ [i, e]) s = .next (s.repliedWith
        ((s.te.heard a.toNat st).storeResponse a.toNat seq [0x05, 0x07]) a.toNat seq (some [0x05, 0x07]))) ∧
      (l.owner = a.toNat → exec (.release ⟨a, seq, none⟩ [i, e]) s = .next (s.repliedWith
        (((s.te.heard a.toNat st).retire i.toNat l .released false).storeResponse a.toNat seq [0x05, 0x00])
        a.toNat seq (some [0x05, 0x00])))

/-- ATTACH and DETACH (5.8): a stale handle is refused STALE_HANDLE; for a valid one the checks in their order, then the
address appended to the listener list or taken out of it. That an epoch byte above 0Fh makes a handle stale is the
model's choice (log entry 19). -/
def Obligations.AttachAndDetachKeepListeners : Prop :=
  (∀ (a i e : Byte) (seq : BitVec 4) (st : Station) (l : Lease) (s : State), s.requestWaits a seq [0x06, i, e] st →
    s.te.names i e l →
    let answered := fun (te : Tables) (body : List Byte) => (Host.Outcome.next (s.repliedWith
      (te.storeResponse a.toNat seq body) a.toNat seq (some body)) : Host.Outcome State Fault Refusal)
    (l.owner = a.toNat ∨ a.toNat ∈ l.listeners →
      exec (.attach ⟨a, seq, none⟩ [i, e]) s = answered (s.te.heard a.toNat st) [0x06, 0x0A]) ∧
    (l.owner ≠ a.toNat → a.toNat ∉ l.listeners → l.phase ≠ .active →
      exec (.attach ⟨a, seq, none⟩ [i, e]) s = answered (s.te.heard a.toNat st) [0x06, 0x08]) ∧
    (l.owner ≠ a.toNat → a.toNat ∉ l.listeners → l.phase = .active → 4 ≤ l.listeners.length →
      exec (.attach ⟨a, seq, none⟩ [i, e]) s = answered (s.te.heard a.toNat st) [0x06, 0x09]) ∧
    (l.owner ≠ a.toNat → a.toNat ∉ l.listeners → l.phase = .active → l.listeners.length < 4 →
      exec (.attach ⟨a, seq, none⟩ [i, e]) s = answered
        ((s.te.heard a.toNat st).setLease i.toNat { l with listeners := l.listeners ++ [a.toNat] })
        [0x06, 0x00, i, e, byte (l.listeners.length + 1)])) ∧
  (∀ (a i e : Byte) (seq : BitVec 4) (st : Station) (l : Lease) (s : State), s.requestWaits a seq [0x07, i, e] st →
    s.te.names i e l →
    let answered := fun (te : Tables) (body : List Byte) => (Host.Outcome.next (s.repliedWith
      (te.storeResponse a.toNat seq body) a.toNat seq (some body)) : Host.Outcome State Fault Refusal)
    (a.toNat ∉ l.listeners →
      exec (.detach ⟨a, seq, none⟩ [i, e]) s = answered (s.te.heard a.toNat st) [0x07, 0x0B]) ∧
    (a.toNat ∈ l.listeners →
      exec (.detach ⟨a, seq, none⟩ [i, e]) s = answered
        ((s.te.heard a.toNat st).setLease i.toNat { l with listeners := l.listeners.filter (· != a.toNat) })
        [0x07, 0x00, i, e])) ∧
  ∀ (a i e : Byte) (seq : BitVec 4) (st : Station) (s : State), s.te.stale i e →
    let refused := fun kind : Byte => (Host.Outcome.next (s.repliedWith
      ((s.te.heard a.toNat st).storeResponse a.toNat seq [kind, 0x06]) a.toNat seq (some [kind, 0x06])) :
      Host.Outcome State Fault Refusal)
    (s.requestWaits a seq [0x06, i, e] st → exec (.attach ⟨a, seq, none⟩ [i, e]) s = refused 0x06) ∧
    (s.requestWaits a seq [0x07, i, e] st → exec (.detach ⟨a, seq, none⟩ [i, e]) s = refused 0x07)

/-- QUERY_SLOT and QUERY_LEASE report the view of 5.9 and change nothing but the station's own record of the exchange. A stale
handle is refused STALE_HANDLE; that an epoch byte above 0Fh makes a handle stale is the model's choice (log entry 19). -/
def Obligations.QueriesReportViews : Prop :=
  (∀ (a n : Byte) (seq : BitVec 4) (st : Station) (s : State), s.requestWaits a seq [0x08, n] st →
    1 ≤ n.toNat → n.toNat ≤ 63 → ∃ body : List Byte,
      exec (.querySlot ⟨a, seq, none⟩ [n]) s = .next (s.repliedWith
        ((s.te.heard a.toNat st).storeResponse a.toNat seq body) a.toNat seq (some body)) ∧
      (s.te.slot n.toNat = .outside → body = [0x08, 0x00, byte s.te.policy.streamArea, 0, 0, 0, 0]) ∧
      ∀ last,
        (∀ mark, s.te.slot n.toNat = .inArea (.free mark) last →
          body = [0x08, 0x00, byte s.te.policy.streamArea, if mark then 9 else 1, 0, 0, 0]) ∧
        (∀ i l, s.te.slot n.toNat = .inArea (.leased i) last → s.te.lease? i = some l →
          body = [0x08, 0x00, byte s.te.policy.streamArea, if l.phase = .active then 2 else 3, byte i,
            byte (s.te.entry i).epoch.toNat, byte l.owner]) ∧
        (∀ cool linger, s.te.slot n.toNat = .inArea (.cooling cool linger) last →
          body = [0x08, 0x00, byte s.te.policy.streamArea, 4, 0, 0, 0]) ∧
        ∀ reason, s.te.slot n.toNat = .inArea (.barred reason) last →
          body = [0x08, 0x00, byte s.te.policy.streamArea, if reason = .manager then 0x15 else 0x25, 0, 0, 0]) ∧
  ∀ (a i e : Byte) (seq : BitVec 4) (st : Station) (s : State), s.requestWaits a seq [0x09, i, e] st →
    (s.te.stale i e → exec (.queryLease ⟨a, seq, none⟩ [i, e]) s = .next (s.repliedWith
      ((s.te.heard a.toNat st).storeResponse a.toNat seq [0x09, 0x06]) a.toNat seq (some [0x09, 0x06]))) ∧
    ∀ l, s.te.names i e l → ∃ body : List Byte,
      body = [0x09, 0x00, (match l.phase with
        | .active => 1
        | .ending .expired _ _ => 0x12
        | .ending .revoked _ _ => 0x22
        | .ending .idle _ _ => 0x32), byte l.owner] ++ slotListBytes l.slots ++ word (l.term.remaining?.getD 0) ++
        [byte l.listeners.length, ((if l.pinned then 1 else 0) + (if l.term = .openEnded then 2 else 0) : Byte)] ∧
      exec (.queryLease ⟨a, seq, none⟩ [i, e]) s = .next (s.repliedWith
        ((s.te.heard a.toNat st).storeResponse a.toNat seq body) a.toNat seq (some body))

/-- LIST_MINE reports a page of the station's handles from an index on, its tickets, held slots and quota, and clears its
overflow flag (5.10). -/
def Obligations.ListMineReportsAndClearsOverflow : Prop :=
  ∀ (a start : Byte) (seq : BitVec 4) (st : Station) (owned tickets : List Nat) (s : State),
    s.requestWaits a seq [0x0A, start] st → 1 ≤ start.toNat → start.toNat ≤ 48 →
    owned.Pairwise (· < ·) →
    (∀ i, i ∈ owned ↔ start.toNat ≤ i ∧ i ≤ 48 ∧ ∃ l, s.te.lease? i = some l ∧ l.owner = a.toNat) →
    tickets = (s.te.queue.filter fun e => e.station == a.toNat).map PendingEntry.ticket → tickets.length ≤ 2 →
    ∃ body : List Byte, body.length = 21 ∧
      body.take 3 = [0x0A, 0x00, byte (min 6 owned.length)] ∧
      (∀ k i, k < 6 → owned[k]? = some i →
        body[3 + 2 * k]? = some (byte i) ∧ body[4 + 2 * k]? = some (byte (s.te.entry i).epoch.toNat)) ∧
      (∀ k, k < 6 → owned[k]? = none → body[3 + 2 * k]? = some 0 ∧ body[4 + 2 * k]? = some 0) ∧
      body[15]? = some (if 6 < owned.length then 1 else 0) ∧ body[16]? = some (byte tickets.length) ∧
      (∀ k, k < 2 → body[17 + k]? = some (byte (tickets[k]?.getD 0))) ∧
      body[19]? = some (byte st.held) ∧ body[20]? = some (byte st.quota) ∧
      exec (.listMine ⟨a, seq, none⟩ [start]) s = .next (s.repliedWith
        (s.te.setStation a.toNat (some { st with
          live := .joined, misses := 0, overflow := false, lastSeq := seq, lastResponse := body }))
        a.toNat seq (some body))

/-- CANCEL of the station's own ticket takes the entry out of the queue without notice, with a queue pass when it was
anchored; any other ticket is refused NO_TICKET (3.4, 5.11). -/
def Obligations.CancelWithdrawsOwnEntry : Prop :=
  ∀ (a ticket : Byte) (seq : BitVec 4) (st : Station) (s : State), s.requestWaits a seq [0x0B, ticket] st →
    1 ≤ ticket.toNat →
    ((∀ e ∈ s.te.queue, e.ticket = ticket.toNat → e.station ≠ a.toNat) →
      exec (.cancel ⟨a, seq, none⟩ [ticket]) s = .next (s.repliedWith
        ((s.te.heard a.toNat st).storeResponse a.toNat seq [0x0B, 0x0C]) a.toNat seq (some [0x0B, 0x0C]))) ∧
    ((s.te.queue.map PendingEntry.ticket).Nodup →
      ∀ e ∈ s.te.queue, e.ticket = ticket.toNat → e.station = a.toNat → ∃ u : Tables,
        u = ({ s.te with queue := s.te.queue.filter fun x => x.ticket != ticket.toNat } : Tables).setStation a.toNat
          (some { st with live := .joined, misses := 0, queued := st.queued - 1 }) ∧
        exec (.cancel ⟨a, seq, none⟩ [ticket]) s = .next (s.repliedWith
          ((if e.anchored then u.queuePass else u).storeResponse a.toNat seq [0x0B, 0x00, ticket])
          a.toNat seq (some [0x0B, 0x00, ticket])))

/-- A reply that carries no request draws no response: in reply to its station's poll it has the liveness effect and its
acknowledgment, in reply to an open poll it changes no table (5.1). -/
def Obligations.IdleReplyDrawsNoResponse : Prop :=
  ∀ (a : Byte) (seq : BitVec 4) (ack : Option Byte) (s : State),
    (s.nextOperation? = some (.station (.reply ⟨a.toNat, seq, ack, none⟩ true)) →
      exec (.idle ⟨a, seq, ack⟩) s = .next (s.repliedWith s.te a.toNat seq none)) ∧
    (s.nextOperation? = some (.station (.reply ⟨a.toNat, seq, ack, none⟩ false)) →
      (s.te.station? a.toNat = none → exec (.idle ⟨a, seq, ack⟩) s = .next (s.repliedWith s.te a.toNat seq none)) ∧
      ∀ st, s.te.station? a.toNat = some st →
        exec (.idle ⟨a, seq, ack⟩) s = .next (s.repliedWith
          ((s.te.heard a.toNat st).acknowledge a.toNat ack) a.toNat seq none))

/-- A request that fails the field check is answered BAD_REQUEST, and the answer is stored (5.2): an unknown kind or no
kind byte, a length that is not the kind's, a field out of its range. A request from an absent station is answered
NOT_JOINED and changes nothing, and a request other than JOIN under the station's last sequence number is answered from the
store with nothing executed, whatever its kind and fields, its acknowledgment taken (5.2, 5.3). A JOIN of another length is
answered BAD_REQUEST, stored when its address is present (5.4); that this holds under the station's last sequence number too
is the model's choice (log entry 21). That an UNKNOWN_KIND_REQUEST row given with one of the eleven kinds
changes nothing is the model's choice (log entry 1). In reply to an open poll only a JOIN of its length is taken;
everything else changes no table and draws no response (4.2). -/
def Obligations.RefusedAndRepeatedRequests : Prop :=
  ((∀ (i : Instr) (f : ReplyFrame) (request : List Byte) (st : Station) (s : State), replyFrame? i = some f →
    f.request = some request → isJoin request = false → s.nextOperation? = some (.station (.reply f false)) →
    s.te.station? f.source = some st → f.seq ≠ st.lastSeq → parseRequest request = none →
    exec i s = .next (s.repliedWith
      (((s.te.heard f.source st).storeResponse f.source f.seq [request.headD 0, 0x0D]).acknowledge f.source f.ack)
      f.source f.seq (some [request.headD 0, 0x0D]))) ∧
  (∀ (h : ReplyHead) (body : List Byte) (s : State), knownKind body = true →
    exec (.unknownKindRequest h body) s = .next s) ∧
  (∀ (h : ReplyHead) (body : List Byte), knownKind body = false →
    replyFrame? (.unknownKindRequest h body) = some ⟨h.source.toNat, h.seq, h.ack, some body⟩ ∧
      isJoin body = false ∧ parseRequest body = none) ∧
  (∀ (kind : Byte) (n : Nat) (fields : List Byte),
    (kind, n) ∈ ([(0x02, 0), (0x03, 6), (0x04, 4), (0x05, 2), (0x06, 2), (0x07, 2), (0x08, 1), (0x09, 2), (0x0A, 1),
      (0x0B, 1)] : List (Byte × Nat)) → fields.length ≠ n → parseRequest (kind :: fields) = none) ∧
  (∀ count flags priority high low idle : Byte,
    (count = 0 ∨ 8 < count.toNat ∨ 3 < flags.toNat ∨ 3 < priority.toNat) →
    parseRequest [0x03, count, flags, priority, high, low, idle] = none) ∧
  (∀ kind i e high low : Byte, (i = 0 ∨ 48 < i.toNat) →
    parseRequest [0x04, i, e, high, low] = none ∧
      (kind ∈ ([0x05, 0x06, 0x07, 0x09] : List Byte) → parseRequest [kind, i, e] = none)) ∧
  (∀ n : Byte, (n = 0 ∨ 63 < n.toNat) → parseRequest [0x08, n] = none) ∧
  (∀ n : Byte, (n = 0 ∨ 48 < n.toNat) → parseRequest [0x0A, n] = none) ∧ parseRequest [0x0B, 0] = none) ∧
  ∀ (i : Instr) (f : ReplyFrame) (request : List Byte) (s : State), replyFrame? i = some f → f.request = some request →
    let answered := fun (te : Tables) (body : Option (List Byte)) => (Host.Outcome.next
      (s.repliedWith te f.source f.seq body) : Host.Outcome State Fault Refusal)
    (s.nextOperation? = some (.station (.reply f true)) → joinTag request = none → exec i s = answered s.te none) ∧
    (s.nextOperation? = some (.station (.reply f false)) →
      (isJoin request = false → s.te.station? f.source = none →
        exec i s = answered s.te (some [request.headD 0, 0x0E])) ∧
      (isJoin request = true → joinTag request = none → s.te.station? f.source = none →
        exec i s = answered s.te (some [0x01, 0x0D])) ∧
      ∀ st, s.te.station? f.source = some st →
        (isJoin request = false → f.seq = st.lastSeq →
          exec i s = answered ((s.te.heard f.source st).acknowledge f.source f.ack) (some st.lastResponse)) ∧
        (isJoin request = true → joinTag request = none →
          exec i s = answered (((s.te.heard f.source st).storeResponse f.source f.seq [0x01, 0x0D]).acknowledge
            f.source f.ack) (some [0x01, 0x0D])))

/-- A station reply is taken whole, its request before its acknowledgment (2.1.1): the acknowledgment is matched against
the tables as the request left them, but not after an open poll or a JOIN answered ADDRESS_TAKEN, which changes no table,
whatever acknowledgment it carries (4.3). The acknowledgment stage
(6.5, 2.3.1): it removes the oldest notice when it names its number, and nothing otherwise; an ENDING notice so removed
retires the lease it names when that lease is ENDING with that epoch, owned by the station, and records the notice's
number. -/
def Obligations.AcknowledgmentComesLast : Prop :=
  ((∀ (i : Instr) (f : ReplyFrame) (openPoll : Bool) (s : State), replyFrame? i = some f →
    s.nextOperation? = some (.station (.reply f openPoll)) →
    exec i s = .next (s.repliedWith (s.te.takeReply f openPoll).1 f.source f.seq (s.te.takeReply f openPoll).2)) ∧
  (∀ (f : ReplyFrame) (t : Tables),
    (∀ request tag st, f.request = some request → joinTag request = some tag → t.station? f.source = some st →
      st.tag = tag) →
    t.takeReply f false =
      ((t.takeReply { f with ack := none } false).1.acknowledge f.source f.ack,
        (t.takeReply { f with ack := none } false).2)) ∧
  (∀ (f : ReplyFrame) (request : List Byte) (tag : BitVec 32) (st : Station) (t : Tables), f.request = some request →
    joinTag request = some tag → t.station? f.source = some st → st.tag ≠ tag →
    t.takeReply f false = (t, some ([0x01, 0x0F] ++ tagBytes st.tag))) ∧
  ∀ (f : ReplyFrame) (t : Tables), t.takeReply f true = t.takeReply { f with ack := none } true) ∧
  ∀ (a : Nat) (t : Tables),
    t.acknowledge a none = t ∧
    ∀ number : Byte,
      (t.station? a = none → t.acknowledge a (some number) = t) ∧
      ∀ st, t.station? a = some st →
        (st.notices = [] → t.acknowledge a (some number) = t) ∧
        ∀ n rest, st.notices = n :: rest →
          (n.number ≠ number → t.acknowledge a (some number) = t) ∧
          (n.number = number → ∃ u, u = t.setStation a (some { st with notices := rest }) ∧
            (∀ h r d l reason deadline, n.content = .ending h r d → t.lease? h.index = some l →
              h.epoch = (t.entry h.index).epoch.toNat → l.owner = a → l.phase = .ending reason deadline (some number) →
              t.acknowledge a (some number) = u.retire h.index l reason.retire false) ∧
            ((∀ h r d l reason deadline, n.content = .ending h r d → t.lease? h.index = some l →
              h.epoch = (t.entry h.index).epoch.toNat → l.owner = a →
              l.phase ≠ .ending reason deadline (some number)) →
              t.acknowledge a (some number) = u))

/-! ### The other operations of the Table Engine -/

/-- A miss report raises the station's miss count by 1; a JOINED station whose count is then at MISS_LIMIT or above becomes
SILENT with its timer started at SILENT_LIMIT; a SILENT one stays so, its count stopping at 15 and its timer running on; for
an absent address nothing changes. -/
def Obligations.MissReportCounts : Prop :=
  ∀ (a : Nat) (s : State), s.nextOperation? = some (.station (.miss a)) →
    let after := fun te : Tables => (Host.Outcome.next { s with te := te, arbiter := { s.arbiter with station := none } } :
      Host.Outcome State Fault Refusal)
    (s.te.station? a = none → exec (.missReport a) s = after s.te) ∧
    ∀ st, s.te.station? a = some st →
      (st.live = .joined → st.misses < 15 → st.misses + 1 < s.te.policy.missLimit →
        exec (.missReport a) s = after (s.te.setStation a (some { st with misses := st.misses + 1 }))) ∧
      (st.live = .joined → st.misses < 15 → s.te.policy.missLimit ≤ st.misses + 1 →
        exec (.missReport a) s = after (s.te.setStation a (some { st with
          misses := st.misses + 1, live := .silent s.te.policy.silentLimit }))) ∧
      ∀ ms, st.live = .silent ms →
        exec (.missReport a) s = after (s.te.setStation a (some { st with misses := min 15 (st.misses + 1) }))

/-- A silence expiry removes a SILENT station for OWNER_LOST and raises STATION_LOST; for a station that is JOINED or
absent it is discarded without effect (4.4, 4.5). A removal in its order (4.5): each lease the station owns, by ascending
index, passes to the house if ACTIVE and pinned (2.6) and otherwise is retired with the reason given, which cools its slots,
tells its listeners ENDED and not the owner (2.4); the station leaves every listener list; its pending entries leave the queue
without notice; its entry is freed with all it holds; and a queue pass runs when one of those pending entries was anchored.
Of a present station no entry, no lease, no listener place and no pending entry is left; its pinned ACTIVE leases stand with
the house as owner and every other field kept, and every other lease of it has been retired, its entry's epoch raised. -/
def Obligations.SilentStationIsRemovedWhole : Prop :=
  (∀ (a : Nat) (s : State), s.nextOperation? = some (.expiry a) →
    let after := fun te : Tables => (Host.Outcome.next { s with
      te := te, arbiter := { s.arbiter with expiries := s.arbiter.expiries.tail } } : Host.Outcome State Fault Refusal)
    (s.te.station? a = none → exec (.silenceExpiry a) s = after s.te) ∧
    ∀ st, s.te.station? a = some st →
      (st.live = .joined → exec (.silenceExpiry a) s = after s.te) ∧
      ∀ ms, st.live = .silent ms → ∃ te : Tables, te = s.te.removeStation a .ownerLost ∧
        exec (.silenceExpiry a) s = after { te with alarms := te.alarms ||| 8 }) ∧
  (∀ (a : Nat) (reason : RetireReason) (t : Tables), ∃ t1 t2 t3 : Tables,
    t1 = (List.range' 1 48).foldl (fun v i =>
      match t.lease? i with
      | none => v
      | some l =>
        if l.owner ≠ a then v
        else if l.pinned = true ∧ l.phase = .active then v.setLease i { l with owner := 31 }
        else v.retire i l reason false) t ∧
    t2 = { t1 with leases := t1.leases.map fun e => ({ e with
      lease := e.lease.map fun l => { l with listeners := l.listeners.filter fun x => x != a } } : LeaseEntry) } ∧
    t3 = ({ t2 with queue := t2.queue.filter fun e => e.station != a } : Tables).setStation a none ∧
    t.removeStation a reason = if t.queue.any fun e => e.station == a && e.anchored then t3.queuePass else t3) ∧
  ∀ (a : Nat) (reason : RetireReason) (t u : Tables), t.sized → t.namesPresent → (t.station? a).isSome →
    u = t.removeStation a reason →
    u.station? a = none ∧ (∀ i l, u.lease? i = some l → l.owner ≠ a ∧ a ∉ l.listeners) ∧
    (∀ e ∈ u.queue, e.station ≠ a) ∧
    ∀ i l, t.lease? i = some l → l.owner = a →
      (l.pinned = true → l.phase = .active → u.entry i = ⟨(t.entry i).epoch, some { l with owner := 31 }⟩) ∧
      (¬ (l.pinned = true ∧ l.phase = .active) → (u.entry i).epoch = (t.entry i).epoch + 1)

/-- The period close (2.1.2): its eight stages on the tables, in their order: the audit of the slots; idle evaluation and then
terms over the leases in ascending order; the deadlines of the leases ENDING before the close; the cooling counts of the
slots that were COOLING and quiet when stage 1 ran; the queue waits, refusing TIMEOUT at 0; the queue pass; the map epoch,
which rises by 1 exactly when the map then differs from the reference image, which becomes the map (9.1). The snapshot of 132
bytes shows each slot as its beacon entry (9.2, 12.3); it becomes the next image while the trunk is held and is discarded
otherwise (9.4); nothing else changes. -/
def Obligations.PeriodCloseTaken : Prop :=
  ∀ (report : List Finding) (s : State), s.nextOperation? = some (.close report) →
    ∃ (ending cooling : List Nat) (s1 s2 s3 s4 s5 s6 s7 te : Tables),
      (ending.Pairwise (· < ·) ∧
        ∀ i, i ∈ ending ↔ 1 ≤ i ∧ i ≤ 48 ∧ ∃ l, s.te.lease? i = some l ∧ l.phase ≠ .active) ∧
      (cooling.Pairwise (· < ·) ∧
        ∀ n, n ∈ cooling ↔ 1 ≤ n ∧ n ≤ s.te.policy.streamArea ∧
          (∃ cool linger, s.te.slotState? n = some (.cooling cool linger)) ∧ (report[n - 1]?).getD .quiet = .quiet) ∧
      s1 = s.te.audit report ∧
      s2 = (List.range' 1 48).foldl Tables.idleLease s1 ∧
      s3 = (List.range' 1 48).foldl Tables.termLease s2 ∧
      s4 = ending.foldl Tables.deadlineLease s3 ∧
      s5 = cooling.foldl Tables.coolSlot s4 ∧
      s6 = ({ s5 with queue := s5.queue.map fun e => { e with wait := e.wait - 1 } } : Tables).refuseEntries
        (fun e => e.wait == 0) .timeout ∧
      s7 = s6.queuePass ∧
      te = { s7 with
        mapEpoch := if s7.image = s.te.reference then s.te.mapEpoch else s.te.mapEpoch + 1
        reference := s7.image } ∧
      te.reference = te.image ∧ te.policy = s.te.policy ∧
      (∃ image : List Byte, image = te.snapshotBytes ∧ image.length = 132 ∧
        image.take 4 = [0xA5] ++ word te.mapEpoch.toNat ++ [byte te.policy.streamArea] ∧ image = withCrc (image.take 130) ∧
        ∀ n, 1 ≤ n → n ≤ 63 → ∃ x y : Byte, image[2 * n + 2]? = some x ∧ image[2 * n + 3]? = some y ∧
          (te.slot n = .outside → x = 0 ∧ y = 0) ∧
          ∀ last,
            (∀ mark, te.slot n = .inArea (.free mark) last → x = 1 ∧ y = if mark then 0x80 else 0) ∧
            (∀ i l, te.slot n = .inArea (.leased i) last → te.lease? i = some l →
              x = (if l.phase = .active then 0x80 ||| byte i else 0xC0 ||| byte i) ∧ y = byte l.owner) ∧
            (∀ cool linger, te.slot n = .inArea (.cooling cool linger) last → x = 4 ∧ y = 0) ∧
            ∀ reason, te.slot n = .inArea (.barred reason) last → x = 5 ∧ y = 0) ∧
      exec (.periodClose report) s = .next
        { s with
          te := te
          arbiter := { s.arbiter with closes := s.arbiter.closes.tail }
          beacon := if s.trunkHeld then ⟨s.beacon.current, some te.snapshotBytes⟩ else s.beacon }

/-- The audit (1.5) acts on every slot from 1 to SA by its state and finding, leaves the others, and raises TRESPASS and LINGER
where it marks an active FREE slot and bars a lingering one. Idle evaluation (2.5) acts on every lease by the last activity of
its slots: ENDING and pinned leases are passed by, one active slot gives the idle count 0, all quiet raises it by 1 up to
255, and at an idle limit above 0 the lease enters ENDING(IDLE). -/
def Obligations.AuditActsOnFindings : Prop :=
  (∀ (i : Nat) (t : Tables),
    (t.lease? i = none → t.idleLease i = t) ∧
    ∀ l, t.lease? i = some l →
      (l.phase ≠ .active ∨ l.pinned = true → t.idleLease i = t) ∧
      (l.phase = .active → l.pinned = false →
        ((∃ n ∈ l.slots, ∃ state, t.slot n = .inArea state .active) →
          t.idleLease i = t.setLease i { l with idleCount := 0 }) ∧
        ((∀ n ∈ l.slots, ∀ state, t.slot n ≠ .inArea state .active) → ∃ count, count = min 255 (l.idleCount + 1) ∧
          (0 < l.idleLimit → l.idleLimit ≤ count →
            t.idleLease i = t.enterEnding i { l with idleCount := count } .idle) ∧
          (l.idleLimit = 0 ∨ count < l.idleLimit → t.idleLease i = t.setLease i { l with idleCount := count })))) ∧
  ∀ (report : List Finding) (t : Tables), t.shaped → report.length = 63 →
    (∀ n ∈ slotNumbers, ∀ f, report[n - 1]? = some f →
      (t.policy.streamArea < n → (t.audit report).slot n = t.slot n) ∧
      ∀ last,
        (∀ mark, t.slot n = .inArea (.free mark) last →
          (t.audit report).slot n = .inArea (.free (f == .active)) f) ∧
        (∀ i, t.slot n = .inArea (.leased i) last → (t.audit report).slot n = .inArea (.leased i) f) ∧
        (∀ reason, t.slot n = .inArea (.barred reason) last → (t.audit report).slot n = .inArea (.barred reason) f) ∧
        ∀ cool linger, t.slot n = .inArea (.cooling cool linger) last →
          (t.audit report).slot n =
            if f = .quiet then .inArea (.cooling cool linger) f
            else if t.policy.lingerLimit ≤ linger + 1 then .inArea (.barred .linger) f
            else .inArea (.cooling t.policy.coolPeriods (linger + 1)) f) ∧
    ((t.audit report).alarmSet .trespass = true ↔
      t.alarmSet .trespass = true ∨ ∃ n ∈ slotNumbers, ∃ mark, t.slotState? n = some (.free mark) ∧
        report[n - 1]? = some .active) ∧
    ((t.audit report).alarmSet .linger = true ↔
      t.alarmSet .linger = true ∨ ∃ n ∈ slotNumbers, ∃ cool linger, t.slotState? n = some (.cooling cool linger) ∧
        report[n - 1]? = some .active ∧ t.policy.lingerLimit ≤ linger + 1)

/-- The work of stages 3, 4 and 5 on one record. Stage 3 on one lease (2.5): remaining falls by 1, at 0 the lease enters
ENDING(EXPIRED), within WARN_PERIODS an unwarned lease is warned; ENDING, pinned and open-term leases are passed by. Stage 4 on
one ENDING lease (2.3.1), retired when its deadline reaches 0, and stage 5 on one COOLING slot (1.5), FREE at 0.
TERM_EXPIRY, END_DEADLINE_EXPIRY, COOLING_END and WAIT_EXPIRY as rows of their own: that each is the period close in which its
record runs out, taken whole when that close is the arbiter's next operation, and that it changes nothing otherwise, is the
model's choice (log entry 6). In that close a lease whose last remaining period ends, as stage 2 leaves it, enters
ENDING(EXPIRED); one that was ENDING with a deadline of 1 is retired; a slot that was COOLING with a count of 1 and is found
quiet becomes FREE, and may be granted by the queue pass; an entry with a wait of 1 has left the queue. -/
def Obligations.CloseStageRowsCountDown : Prop :=
  ((∀ (i : Nat) (t : Tables), t.lease? i = none → t.termLease i = t ∧ t.deadlineLease i = t) ∧
    (∀ (i : Nat) (l : Lease) (t : Tables), t.lease? i = some l →
      (l.phase ≠ .active ∨ l.pinned = true ∨ l.term = .openEnded → t.termLease i = t) ∧
      (l.phase = .active → l.pinned = false → ∀ term remaining,
        (l.term = .periods term 1 →
          t.termLease i = t.enterEnding i { l with term := .periods term 0 } .expired) ∧
        (l.term = .periods term (remaining + 2) → remaining + 1 ≤ t.policy.warnPeriods → l.warned = false →
          t.termLease i = (t.setLease i { l with term := .periods term (remaining + 1), warned := true }).post l.owner
            (.warn ⟨i, (t.entry i).epoch.toNat⟩ (remaining + 1))) ∧
        (l.term = .periods term (remaining + 2) → (t.policy.warnPeriods < remaining + 1 ∨ l.warned = true) →
          t.termLease i = t.setLease i { l with term := .periods term (remaining + 1) })) ∧
      (l.phase = .active → t.deadlineLease i = t) ∧
      ∀ reason deadline notice, l.phase = .ending reason deadline notice →
        (deadline = 1 → t.deadlineLease i = t.retire i l reason.retire false) ∧
        (2 ≤ deadline → t.deadlineLease i = t.setLease i { l with phase := .ending reason (deadline - 1) notice })) ∧
    ∀ (n : Nat) (t : Tables),
      ((∀ cool linger, t.slotState? n ≠ some (.cooling cool linger)) → t.coolSlot n = t) ∧
      ∀ cool linger last, t.slot n = .inArea (.cooling cool linger) last →
        (cool = 1 → t.coolSlot n = t.setSlot n (.inArea (.free false) last)) ∧
        (2 ≤ cool → t.coolSlot n = t.setSlot n (.inArea (.cooling (cool - 1) linger) last))) ∧
  (∀ (k : Nat) (s : State), (∀ report, s.nextOperation? ≠ some (.close report)) →
    exec (.termExpiry k) s = .next s ∧ exec (.endDeadlineExpiry k) s = .next s ∧ exec (.coolingEnd k) s = .next s ∧
      exec (.waitExpiry k) s = .next s) ∧
  ∀ (report : List Finding) (s : State), s.nextOperation? = some (.close report) →
    let isClose := fun (i : Instr) (t : State) => exec i s = .next t ∧ exec (.periodClose report) s = .next t
    let idled : Tables := (List.range' 1 48).foldl Tables.idleLease (s.te.audit report)
    (∀ i, (idled.lease? i = none → exec (.termExpiry i) s = .next s) ∧
      ∀ l, 1 ≤ i → i ≤ 48 → idled.lease? i = some l →
        (l.phase ≠ .active ∨ l.pinned = true ∨ l.term = .openEnded ∨
            (∃ term remaining, l.term = .periods term (remaining + 2)) → exec (.termExpiry i) s = .next s) ∧
        (l.phase = .active → l.pinned = false → ∀ term, l.term = .periods term 1 →
          ∃ t notice, isClose (.termExpiry i) t ∧ t.te.lease? i = some { l with
            term := .periods term 0, phase := .ending .expired s.te.policy.endPeriods notice })) ∧
    (∀ i, (s.te.lease? i = none → exec (.endDeadlineExpiry i) s = .next s) ∧
      ∀ l, 1 ≤ i → i ≤ 48 → s.te.lease? i = some l →
        (l.phase = .active → exec (.endDeadlineExpiry i) s = .next s) ∧
        ∀ reason deadline notice, l.phase = .ending reason deadline notice →
          (2 ≤ deadline → exec (.endDeadlineExpiry i) s = .next s) ∧
          (deadline = 1 → ∃ t, isClose (.endDeadlineExpiry i) t ∧
            (t.te.entry i).epoch = (s.te.entry i).epoch + 1)) ∧
    (∀ n, ((∀ cool linger, s.te.slotState? n ≠ some (.cooling cool linger)) → exec (.coolingEnd n) s = .next s) ∧
      ∀ cool linger, s.te.slotState? n = some (.cooling cool linger) →
        (2 ≤ cool ∨ report[n - 1]? = some .active → exec (.coolingEnd n) s = .next s) ∧
        (cool = 1 → report[n - 1]? = some .quiet → s.te.shaped → s.te.mapMatchesLeases →
          ∃ t, isClose (.coolingEnd n) t ∧
            (t.te.slotState? n = some (.free false) ∨ ∃ i, t.te.slotState? n = some (.leased i)))) ∧
    ∀ k, ((∀ e ∈ s.te.queue, e.ticket = k → 2 ≤ e.wait) → exec (.waitExpiry k) s = .next s) ∧
      ∀ e ∈ s.te.queue, e.ticket = k → e.wait = 1 →
        ∃ t, isClose (.waitExpiry k) t ∧ ∀ x ∈ t.te.queue, x.ticket ≠ k

/-! ### The trunk and the beacon -/

/-- The judgement at a frame start that ends no window (8.2): in CONFIRMING the fourth good one locks, a bad one unlocks
without alarm; in LOCKED a bad one gives SLIPPING with bad count 1; in SLIPPING a good one locks again, a bad one raises the
bad count and at the third the trunk is lost with SYNC_LOST and both images gone. That FRAME_START in UNLOCKED changes nothing
(log entry 5) and that the sampled level of TFS is taken from the TFS given (log entry 8) are the model's choices. -/
def Obligations.FrameStartJudged : Prop :=
  ∀ (tfs : Bool) (s : State),
    let after := fun sync : Sync => ({ s with trunk := ⟨sync, !tfs, 0⟩ } : State)
    let next := fun (w : Window) => ({ w with frame := w.frame + 1, idle := s.te.policy.idleCode } : Window)
    (s.trunk.sync = .unlocked → exec (.frameStart tfs) s = .next s) ∧
    ∀ al : Machine.Alignment, al.bitPos = 511 →
      (∀ good, s.trunk.sync = .confirming al good →
        (tfs = true → al.misplaced = false → good + 1 < 4 →
          exec (.frameStart tfs) s = .next (after (.confirming ⟨0, false, 0⟩ (good + 1)))) ∧
        (tfs = true → al.misplaced = false → 4 ≤ good + 1 →
          exec (.frameStart tfs) s = .next { after
            (.locked ⟨0, false, 0⟩ ⟨0, List.replicate 63 0, s.te.policy.idleCode⟩) with
            beacon := ⟨s.beacon.next, none⟩ }) ∧
        (tfs = false ∨ al.misplaced = true → exec (.frameStart tfs) s = .next (after .unlocked))) ∧
      (∀ w, w.frame < 1023 → s.trunk.sync = .locked al w →
        (tfs = true → al.misplaced = false →
          exec (.frameStart tfs) s = .next (after (.locked ⟨0, false, 0⟩ (next w)))) ∧
        (tfs = false ∨ al.misplaced = true →
          exec (.frameStart tfs) s = .next (after (.slipping ⟨0, false, 0⟩ (next w) 1)))) ∧
      ∀ w bad, w.frame < 1023 → s.trunk.sync = .slipping al w bad →
        (tfs = true → al.misplaced = false →
          exec (.frameStart tfs) s = .next (after (.locked ⟨0, false, 0⟩ (next w)))) ∧
        (tfs = false ∨ al.misplaced = true → bad + 1 < 3 →
          exec (.frameStart tfs) s = .next (after (.slipping ⟨0, false, 0⟩ (next w) (bad + 1)))) ∧
        (tfs = false ∨ al.misplaced = true → 3 ≤ bad + 1 →
          exec (.frameStart tfs) s = .next { after .unlocked with
            te := { s.te with alarms := s.te.alarms ||| 4 }, beacon := ⟨none, none⟩ })

/-- The frame start that ends frame 1023 completes the window (8.3, 9.3): the audit report, active at ACTIVE_THRESHOLD or
above, waits for the arbiter, the next image becomes the current one, and a window of no frames and no counts begins, unless
the judgement at it is the third bad one. That WINDOW_COMPLETE in any other frame changes nothing, that FRAME_START in frame
1023 is the same event (log entry 5), and that the sampled level of TFS is taken from the TFS given (log entry 8) are the
model's choices. -/
def Obligations.WindowCompleteDelivers : Prop :=
  ∀ (tfs : Bool) (al : Machine.Alignment) (w : Window) (s : State), al.bitPos = 511 →
    let fresh : Window := ⟨0, List.replicate 63 0, s.te.policy.idleCode⟩
    let after := fun sync : Sync => ({ s with
      trunk := ⟨sync, !tfs, 0⟩
      beacon := ⟨s.beacon.next, none⟩
      arbiter := { s.arbiter with closes := s.arbiter.closes ++
        [w.counts.map fun c => if s.te.policy.activeThreshold ≤ c then .active else .quiet] } } : State)
    (w.frame < 1023 → (s.trunk.sync = .locked al w ∨ ∃ bad, s.trunk.sync = .slipping al w bad) →
      exec (.windowComplete tfs) s = .next s) ∧
    (w.frame = 1023 →
      (s.trunk.sync = .locked al w →
        (tfs = true → al.misplaced = false →
          exec (.windowComplete tfs) s = .next (after (.locked ⟨0, false, 0⟩ fresh))) ∧
        (tfs = false ∨ al.misplaced = true →
          exec (.windowComplete tfs) s = .next (after (.slipping ⟨0, false, 0⟩ fresh 1)))) ∧
      (∀ bad, s.trunk.sync = .slipping al w bad →
        (tfs = true → al.misplaced = false →
          exec (.windowComplete tfs) s = .next (after (.locked ⟨0, false, 0⟩ fresh))) ∧
        (tfs = false ∨ al.misplaced = true → bad + 1 < 3 →
          exec (.windowComplete tfs) s = .next (after (.slipping ⟨0, false, 0⟩ fresh (bad + 1)))) ∧
        (tfs = false ∨ al.misplaced = true → 3 ≤ bad + 1 →
          exec (.windowComplete tfs) s = .next { after .unlocked with
            te := { s.te with alarms := s.te.alarms ||| 4 }, beacon := ⟨none, none⟩ })) ∧
      ((s.trunk.sync = .locked al w ∨ ∃ bad, s.trunk.sync = .slipping al w bad) →
        exec (.frameStart tfs) s = exec (.windowComplete tfs) s))

/-- The loss of TCLK (8.2): LOCKED and SLIPPING are lost with SYNC_LOST, the window and both images gone, CONFIRMING without
alarm; in UNLOCKED nothing changes but the watch. -/
def Obligations.TclkLostUnlocks : Prop :=
  ∀ s : State,
    (s.trunk.sync = .unlocked ∨ (∃ al good, s.trunk.sync = .confirming al good) →
      exec .tclkLost s = .next { s with trunk := ⟨.unlocked, s.trunk.tfsWasLow, 1000⟩ }) ∧
    ((∃ al w, s.trunk.sync = .locked al w) ∨ (∃ al w bad, s.trunk.sync = .slipping al w bad) →
      exec .tclkLost s = .next { s with
        trunk := ⟨.unlocked, s.trunk.tfsWasLow, 1000⟩
        te := { s.te with alarms := s.te.alarms ||| 4 }
        beacon := ⟨none, none⟩ })

/-- A TCLK period (8.1, 8.3): the watch restarts and TFS is recognised when asserted after having been deasserted; in UNLOCKED
the first one starts CONFIRMING at bit position 0; elsewhere the bit position advances, a TFS away from the frame start is
misplaced, and at the end of slot n the activity count of slot n rises by 1 when the byte differs from IDLE_CODE.
TFS_RECOGNISED is such a period in which TFS is recognised; that it recognises one whatever was sampled before is the model's
choice (log entry 8). At bit position 511 the period is the frame start: with the TFS sampled when that is recognised or
absent, and without one when TFS is held asserted. -/
def Obligations.TclkPeriodTakesOneBit : Prop :=
  ∀ (level bit : Bool) (s : State),
    let tfs := level && s.trunk.tfsWasLow
    let after := fun sync : Sync => ({ s with trunk := ⟨sync, !level, 0⟩ } : State)
    (s.trunk.sync = .unlocked → exec (.tclkPeriod level bit) s = .next
      (after (if tfs then .confirming ⟨0, false, 0⟩ 0 else .unlocked))) ∧
    (∃ t, exec (.tfsRecognised bit) s = .next t ∧
      exec (.tclkPeriod true bit) { s with trunk := { s.trunk with tfsWasLow := true } } = .next t) ∧
    ∀ al : Machine.Alignment,
      let al' : Machine.Alignment := ⟨al.bitPos + 1, al.misplaced || tfs, (al.shift <<< 1) ||| (if bit then 1 else 0)⟩
      let counted := fun w w' : Window => w'.frame = w.frame ∧ w'.idle = w.idle ∧ ∀ n, 1 ≤ n → n ≤ 63 →
        nth? w'.counts n =
          if al'.bitPos = 8 * n + 7 ∧ al'.shift ≠ w.idle then (nth? w.counts n).map fun c => min 1024 (c + 1)
          else nth? w.counts n
      (al.bitPos < 511 →
        (∀ good, s.trunk.sync = .confirming al good →
          exec (.tclkPeriod level bit) s = .next (after (.confirming al' good))) ∧
        (∀ w, s.trunk.sync = .locked al w →
          ∃ w', counted w w' ∧ exec (.tclkPeriod level bit) s = .next (after (.locked al' w'))) ∧
        ∀ w bad, s.trunk.sync = .slipping al w bad →
          ∃ w', counted w w' ∧ exec (.tclkPeriod level bit) s = .next (after (.slipping al' w' bad))) ∧
      (al.bitPos = 511 → s.trunk.sync.alignment? = some al → (level = true → s.trunk.tfsWasLow = true) →
        exec (.tclkPeriod level bit) s = exec (.frameStart level) s) ∧
      (al.bitPos = 511 → s.trunk.sync.alignment? = some al → level = true → s.trunk.tfsWasLow = false →
        ∃ t, exec (.frameStart false) s = .next t ∧
          exec (.tclkPeriod level bit) s = .next { t with trunk := { t.trunk with tfsWasLow := false } })

/-- The beacon (9.3): with a current image and the trunk held, BCN_OE is asserted at bit positions 0 to 7 and BCN_OUT carries,
most significant bit first, byte i of the image in frame i and IDLE_CODE from frame 132 on; in every other state BCN_OE is
deasserted. -/
def Obligations.BeaconDrivesSlotZero : Prop :=
  ∀ (s : State),
    (∀ al w image, (s.trunk.sync = .locked al w ∨ ∃ bad, s.trunk.sync = .slipping al w bad) →
      s.beacon.current = some image → image.length = 132 →
      (s.bcnOe = true ↔ al.bitPos < 8) ∧
      (al.bitPos < 8 → ∀ b, image[w.frame]? = some b → s.bcnOut = some (b.getLsbD (7 - al.bitPos))) ∧
      (al.bitPos < 8 → 132 ≤ w.frame → s.bcnOut = some (w.idle.getLsbD (7 - al.bitPos)))) ∧
    ((s.beacon.current = none ∨ s.trunkHeld = false) → s.bcnOe = false)

/-! ### The request line -/

/-- The choice of a poll on leaving GAP (7.3, 7.4): the lowest eligible address above the last one, JOINED stations in every
round and SILENT ones in a round with counter 0; with none left the round ends, and an open poll follows when JOIN_EVERY
rounds have ended since the last, otherwise the choice is made in the next round; after a reset the first poll is an open
poll (that it ends no round is log entry 12; that the row POLL is taken at any time of GAP is log entry 2). A poll carries the
station's notice count, its overflow flag and its oldest notice by kind (6.3, 12.1, 12.2). While a frame is sent RL_DE is
asserted and RL_TX carries its characters without a gap, each a start bit, 8 data bits least significant first and a stop
bit; otherwise RL_DE is released and RL_TX rests at mark (7.1). -/
def Obligations.PollChosenBySchedule : Prop :=
  (openPollFrame = withCrc [0, 0, 0x02, 0, 0] ∧
    ∀ (a : Nat) (st : Station), ∃ body : List Byte,
      pollFrame a st = withCrc ([byte a, 0, 0x01, byte st.notices.length ||| (if st.overflow then 8 else 0),
        byte body.length] ++ body) ∧
      (st.notices = [] → body = []) ∧
      ∀ n rest, st.notices = n :: rest → body =
        match n.content with
        | .granted ticket h slots term => [0x01, n.number, byte ticket, byte h.index, byte h.epoch, byte slots.length] ++
            (slots.map byte ++ List.replicate 8 0).take 8 ++ word (term.getD 0)
        | .refused ticket reason => [0x02, n.number, byte ticket,
            match reason with
            | .cleared => 0x07
            | .quota => 0x08
            | .timeout => 0x09
            | .noRoom => 0x0A]
        | .warn h remaining => [0x03, n.number, byte h.index, byte h.epoch, byte remaining]
        | .ending h reason deadline => [0x04, n.number, byte h.index, byte h.epoch,
            (match reason with
            | .expired => 0x01
            | .revoked => 0x02
            | .idle => 0x03), byte deadline]
        | .ended h reason => [0x05, n.number, byte h.index, byte h.epoch,
            match reason with
            | .expired => 0x01
            | .revoked => 0x02
            | .idle => 0x03
            | .released => 0x04
            | .ownerLost => 0x05
            | .ownerLeft => 0x06
            | .cleared => 0x07]) ∧
  (∀ s : State,
    (∀ frame left k b j, ((∃ a w, s.line.exchange = .sendPoll a frame w left) ∨ s.line.exchange = .sendResponse frame left) →
      frame[k]? = some b → j < 10 → left + (10 * k + j) = 10 * frame.length →
      s.rlDe = true ∧ s.rlTx = if j = 0 then false else if j = 9 then true else b.getLsbD (j - 1)) ∧
    (∀ b left j, s.line.exchange = .finishChar b left → j < 10 → left + j = 10 →
      s.rlDe = true ∧ s.rlTx = if j = 0 then false else if j = 9 then true else b.getLsbD (j - 1)) ∧
    ((∀ a frame w left, s.line.exchange ≠ .sendPoll a frame w left) →
      (∀ frame left, s.line.exchange ≠ .sendResponse frame left) → (∀ b left, s.line.exchange ≠ .finishChar b left) →
      s.rlDe = false ∧ s.rlTx = true)) ∧
  ∀ (elapsed : Nat) (s : State), s.line.exchange = .gap elapsed → s.arbiter.station = none →
    let due := fun a : Nat => 1 ≤ a ∧ a ≤ 30 ∧ s.line.schedule.last < a ∧
      ∃ st, s.te.station? a = some st ∧ (st.live = .joined ∨ s.line.schedule.round = 0)
    let sends := fun (a : Nat) (frame : List Byte) (c : Schedule) => exec .poll s = .next { s with
      line := ⟨.sendPoll a frame s.te.policy.replyWindow (10 * frame.length), c⟩ }
    (s.line.schedule.openDue = true → sends 0 openPollFrame { s.line.schedule with openDue := false }) ∧
    (s.line.schedule.openDue = false →
      (∀ a, due a → (∀ b, b < a → ¬ due b) → ∀ st, s.te.station? a = some st →
        sends a (pollFrame a st) { s.line.schedule with last := a }) ∧
      ((∀ a, ¬ due a) → s.te.policy.joinEvery ≤ s.line.schedule.opens + 1 →
        sends 0 openPollFrame ⟨s.line.schedule.round + 1, 0, 0, false⟩) ∧
      ((∀ a, ¬ due a) → s.line.schedule.opens + 1 < s.te.policy.joinEvery →
        exec .poll s = exec .poll { s with
          line := ⟨.gap elapsed, ⟨s.line.schedule.round + 1, 0, s.line.schedule.opens + 1, false⟩⟩ }))

/-- The events of an exchange (7.3): the poll sent, the start bit in the window, the window's end, the end of the frame (which
frames validReply takes and which it refuses, ReceptionJudgesReplies states), the 33rd character, the response sent. That each changes nothing in any other state is the model's choice (log entry 1). When no
command and no operation waits a step is a microsecond of local time, the model's choice (log entry 2): the silence timers
count milliseconds, in the model's phase (log entry 7), and those that run out wait as expiries (4.4); the TCLK watch counts
to 1 ms, at which TCLK is lost (8.2); and the time of the exchange state counts, its end being the event of that state (7.3),
but for GAP, which ends in a poll after 20 µs, and the character finished after a soft reset, which ends in GAP (7.6). -/
def Obligations.ExchangeEventsMoveTheLine : Prop :=
  (∀ s : State,
    let at_ := fun x : Exchange => ({ s with line := { s.line with exchange := x } } : State)
    let missed := fun a : Nat => (if a = 0 then at_ (.gap 0) else
      { at_ (.gap 0) with arbiter := { s.arbiter with station := some (.miss a) } } : State)
    (∀ a frame window left, s.line.exchange = .sendPoll a frame window left →
      exec .pollSent s = .next (at_ (.awaitReply a window))) ∧
    (∀ a left, s.line.exchange = .awaitReply a left →
      exec .replyStart s = .next (at_ (.receiving a)) ∧ exec .replyWindowExpiry s = .next (missed a)) ∧
    (∀ a, s.line.exchange = .receiving a →
      exec .thirtyThirdCharacter s = .next (missed a) ∧
      ∀ chars,
        (validReply a chars = none → exec (.frameEnd chars) s = .next (missed a)) ∧
        ∀ f, validReply a chars = some f → exec (.frameEnd chars) s = .next
          { at_ (.waitEngine a) with arbiter := { s.arbiter with station := some (.reply f (a == 0)) } }) ∧
    (∀ frame left, s.line.exchange = .sendResponse frame left → exec .responseSent s = .next (at_ (.gap 0))) ∧
    ((∀ a left, s.line.exchange ≠ .awaitReply a left) → exec .replyStart s = .next s ∧
      exec .replyWindowExpiry s = .next s) ∧
    ((∀ a, s.line.exchange ≠ .receiving a) → exec .thirtyThirdCharacter s = .next s ∧
      ∀ chars, exec (.frameEnd chars) s = .next s) ∧
    ((∀ a frame window left, s.line.exchange ≠ .sendPoll a frame window left) → exec .pollSent s = .next s) ∧
    ((∀ frame left, s.line.exchange ≠ .sendResponse frame left) → exec .responseSent s = .next s) ∧
    ((∀ elapsed, s.line.exchange ≠ .gap elapsed) ∨ s.arbiter.station ≠ none → exec .poll s = .next s)) ∧
  ∀ s : State, s.pending = [] → s.nextOperation? = none →
    ∃ (stations : List (Option Station)) (expiries : List Nat) (u v : State),
      (s.usPhase < 999 → stations = s.te.stations ∧ expiries = s.arbiter.expiries) ∧
      (999 ≤ s.usPhase →
        (stations = s.te.stations.map fun x => x.map fun st => { st with live := match st.live with
          | .joined => .joined
          | .silent ms => .silent (ms - 1) }) ∧
        ∀ a, a ∈ expiries ↔ a ∈ s.arbiter.expiries ∨
          (1 ≤ a ∧ a ≤ 30 ∧ ∃ st, s.te.station? a = some st ∧ st.live = .silent 1)) ∧
      u = { s with
        usPhase := if s.usPhase < 999 then s.usPhase + 1 else 0
        te := { s.te with stations := stations }
        arbiter := { s.arbiter with expiries := expiries } } ∧
      (s.trunk.tclkWatch < 999 → v = { u with trunk := { s.trunk with tclkWatch := s.trunk.tclkWatch + 1 } }) ∧
      (s.trunk.tclkWatch = 999 → exec .tclkLost u = .next v) ∧
      (999 < s.trunk.tclkWatch → v = u) ∧
      let at_ := fun x : Exchange => ({ v with line := { v.line with exchange := x } } : State)
      match s.line.exchange with
      | .gap elapsed => step s = if elapsed < 19 then .next (at_ (.gap (elapsed + 1))) else exec .poll (at_ (.gap 20))
      | .sendPoll a frame w left => step s = if left ≤ 1 then exec .pollSent v else .next (at_ (.sendPoll a frame w (left - 1)))
      | .awaitReply a left => step s = if left ≤ 1 then exec .replyWindowExpiry v else .next (at_ (.awaitReply a (left - 1)))
      | .receiving _ => step s = .next v
      | .waitEngine _ => step s = .next v
      | .sendResponse frame left => step s = if left ≤ 1 then exec .responseSent v else .next (at_ (.sendResponse frame (left - 1)))
      | .finishChar b left => step s = .next (at_ (if left ≤ 1 then .gap 0 else .finishChar b (left - 1)))

/-! ### What several operations share -/

/-- A notice posted to a present station stands at the end of its queue with the next notice number, which rises by 1; a full
queue loses it, which sets the overflow flag and raises NOTICE_OVERFLOW; to the house or an absent address none is posted
(6.2). -/
def Obligations.PostingQueuesOrOverflows : Prop :=
  ∀ (a : Nat) (c : NoticeContent) (t : Tables),
    (t.station? a = none → t.post a c = t) ∧
    (t.sized → t.station? 31 = none) ∧
    ∀ st, t.station? a = some st →
      (st.notices.length < 4 → t.post a c = t.setStation a (some { st with
        notices := st.notices ++ [⟨st.nextNotice, c⟩], nextNotice := st.nextNotice + 1 })) ∧
      (4 ≤ st.notices.length → t.post a c =
        { t.setStation a (some { st with overflow := true }) with alarms := t.alarms ||| 64 })

/-- A grant (1.3, 2.2.2): the entry holds the lease under its unchanged epoch, every slot of it is LEASED with its index, a
station owner's counts rise by the slots and by 1, and nothing else changes. -/
def Obligations.GrantCreatesLease : Prop :=
  ∀ (i : Nat) (l : Lease) (t u : Tables), t.sized → 1 ≤ i → i ≤ 48 →
    u = t.createLease i l →
    u.entry i = ⟨(t.entry i).epoch, some l⟩ ∧ (∀ j, j ≠ i → u.entry j = t.entry j) ∧
    (∀ n, u.slot n = match t.slot n with
      | .inArea state last => .inArea (if n ∈ l.slots then .leased i else state) last
      | .outside => .outside) ∧
    (∀ a, u.station? a = if a = l.owner then
        (t.station? a).map fun st => { st with held := st.held + l.slots.length, leaseCount := st.leaseCount + 1 }
      else t.station? a) ∧
    u.queue = t.queue ∧ u.ticket = t.ticket ∧ u.policy = t.policy ∧ u.mapEpoch = t.mapEpoch ∧
    u.reference = t.reference ∧ u.alarms = t.alarms

/-- Entry to ENDING (2.3.1): the lease ENDING with its reason and END_PERIODS as deadline, an ENDING notice posted to the
owner, whose number the lease records when it is queued. -/
def Obligations.EnteringEndingPostsAndRecords : Prop :=
  ∀ (i : Nat) (l : Lease) (reason : EndReason) (t : Tables),
    let content : NoticeContent := .ending ⟨i, (t.entry i).epoch.toNat⟩ reason t.policy.endPeriods
    let ended := fun notice : Option Byte =>
      t.setLease i { l with phase := .ending reason t.policy.endPeriods notice }
    (t.station? l.owner = none → t.enterEnding i l reason = ended none) ∧
    ∀ st, t.station? l.owner = some st →
      (st.notices.length < 4 → t.enterEnding i l reason = (ended (some st.nextNotice)).setStation l.owner
        (some { st with notices := st.notices ++ [⟨st.nextNotice, content⟩], nextNotice := st.nextNotice + 1 })) ∧
      (4 ≤ st.notices.length → t.enterEnding i l reason =
        { (ended none).setStation l.owner (some { st with overflow := true }) with alarms := t.alarms ||| 64 })

/-- A retirement (2.4): the entry FREE with its epoch raised by 1, every slot of the lease COOLING with a full count and linger
count 0, a station owner's counts lowered, and then ENDED with the old handle posted to the listeners in order and, when the
reason tells it, to the owner. -/
def Obligations.RetirementFreesAndTells : Prop :=
  ∀ (i : Nat) (l : Lease) (reason : RetireReason) (tellOwner : Bool) (t : Tables), t.sized → 1 ≤ i → i ≤ 48 → ∃ u : Tables,
    t.retire i l reason tellOwner = (l.listeners ++ if tellOwner then [l.owner] else []).foldl
      (fun v a => v.post a (.ended ⟨i, (t.entry i).epoch.toNat⟩ reason)) u ∧
    u.entry i = ⟨(t.entry i).epoch + 1, none⟩ ∧ (∀ j, j ≠ i → u.entry j = t.entry j) ∧
    (∀ n, u.slot n = match t.slot n with
      | .inArea state last => .inArea (if n ∈ l.slots then .cooling t.policy.coolPeriods 0 else state) last
      | .outside => .outside) ∧
    (∀ a, u.station? a = if a = l.owner then
        (t.station? a).map fun st => { st with held := st.held - l.slots.length, leaseCount := st.leaseCount - 1 }
      else t.station? a) ∧
    u.queue = t.queue ∧ u.ticket = t.ticket ∧ u.policy = t.policy ∧ u.mapEpoch = t.mapEpoch ∧
    u.reference = t.reference ∧ u.alarms = t.alarms

/-- The allocation choice without the contiguous flag (1.4): the lowest candidates, or no choice when there are fewer than
the count. The allocation choice with the contiguous flag (1.4): the lowest run of that many adjoining candidates within
the stream area, or no choice when there is no such run. The possibility test (3.1): a request is possible when its count does
not exceed the usable slots, those of the stream area that are not BARRED, and for a contiguous one when there is a run of
that many adjoining usable slots besides. -/
def Obligations.ChoiceTakesLowest : Prop :=
  (∀ (count : Nat) (t : Tables),
    let candidate := fun n : Nat => 1 ≤ n ∧ n ≤ t.policy.streamArea ∧ t.slotState? n = some (.free false)
    (∀ ns, t.choice count false = some ns →
      ns.length = count ∧ ns.Pairwise (· < ·) ∧ (∀ n ∈ ns, candidate n) ∧
        ∀ n, candidate n → n ∉ ns → ∀ m ∈ ns, m < n) ∧
    (t.choice count false = none ↔
      ((List.range' 1 t.policy.streamArea).filter fun n => t.slotState? n == some (.free false)).length < count)) ∧
  (∀ (count : Nat) (t : Tables), 1 ≤ count →
    let run := fun k : Nat => 1 ≤ k ∧ ∀ n, k ≤ n → n < k + count →
      n ≤ t.policy.streamArea ∧ t.slotState? n = some (.free false)
    (∀ ns, t.choice count true = some ns ↔ ∃ k, run k ∧ (∀ j, run j → k ≤ j) ∧ ns = List.range' k count) ∧
    (t.choice count true = none ↔ ∀ k, ¬ run k)) ∧
  ∀ (count : Nat) (t : Tables), 1 ≤ count →
    let usable := fun n : Nat => 1 ≤ n ∧ n ≤ t.policy.streamArea ∧
      ∃ state, t.slotState? n = some state ∧ ∀ reason, state ≠ .barred reason
    (∀ ns : List Nat, ns.Nodup → (∀ n, n ∈ ns ↔ usable n) →
      (t.possible count false = true ↔ count ≤ ns.length) ∧
      (t.possible count true = true ↔ count ≤ ns.length ∧ ∃ k, ∀ n, k ≤ n → n < k + count → usable n))

/-- A new pending entry (3.2): the fields of the request with its term clipped and QUEUE_WAIT as its wait, as its ticket the
first one from the counter on, 255 being followed by 1, that no entry bears, a place after every entry of the same or higher priority and before every one of lower priority; the counter stands
one past the ticket, the station's queued count is 1 higher, and nothing else in the tables changes. -/
def Obligations.NewEntryTakesItsPlace : Prop :=
  ∀ (a : Nat) (g : GrantAsk) (t u : Tables) (ticket : Nat), t.queueOrdered → (u, ticket) = t.enqueue a g →
    (∀ e ∈ t.queue, e.ticket ≠ ticket) ∧ 1 ≤ ticket ∧ ticket ≤ 255 ∧
    ((∀ e ∈ t.queue, e.ticket ≠ t.ticket) → ticket = t.ticket) ∧
    (∃ advances : List Nat, (advances ++ [ticket]).head? = some t.ticket ∧
      (advances ++ [ticket]).IsChain (fun x y => y = if x = 255 then 1 else x + 1) ∧
      ∀ n ∈ advances, ∃ e ∈ t.queue, e.ticket = n) ∧
    u.ticket = (if ticket = 255 then 1 else ticket + 1) ∧
    (∃ front back : List PendingEntry, t.queue = front ++ back ∧
      u.queue = front ++ (⟨ticket, a, g.count, g.contiguous, g.priority, t.policy.clip g.term, g.idleLimit,
        t.policy.queueWait, 0, false⟩ : PendingEntry) :: back ∧
      (∀ e ∈ front, g.priority ≤ e.priority) ∧ ∀ e ∈ back, e.priority < g.priority) ∧
    u.station? a = ((t.station? a).map fun st => { st with queued := st.queued + 1 }) ∧
    (∀ b, b ≠ a → u.station? b = t.station? b) ∧
    u = { t with queue := u.queue, ticket := u.ticket, stations := u.stations }

/-- The visit of one entry by a queue pass (3.3): over its quota it is removed with REFUSED(QUOTA); within it and fitting, it
is granted in the lowest FREE entry with GRANTED posted; otherwise it stays and nothing changes. The walk of the pass (3.3):
entry by entry in queue order, and no further than an anchored entry that stays. Pass-over counting (3.3): of the entries
visited those that stayed are left, raised by 1 up to 15 when one behind them was granted; those not visited are left as they
were; and each entry left whose passed count is at or above ANCHOR_PASSES is anchored. Entries refused by a test (3.4) leave
the queue, each with a REFUSED notice to its station in queue order, and the others stay in order. -/
def Obligations.PassVisitsEntry : Prop :=
  (∀ t : Tables, passWalk [] t = (t, []) ∧
    ∀ (e : PendingEntry) (es : List PendingEntry) (u : Tables) (fate : Fate), t.visit e = (u, fate) →
      (fate = .stayed → e.anchored = true →
        passWalk (e :: es) t = (u, (e, .stayed) :: es.map fun x => (x, .unvisited))) ∧
      (fate ≠ .stayed ∨ e.anchored = false →
        passWalk (e :: es) t = ((passWalk es u).1, (e, fate) :: (passWalk es u).2))) ∧
  (∀ t : Tables, ∃ (u : Tables) (fates : List (PendingEntry × Fate)), passWalk t.queue t = (u, fates) ∧
    fates.map Prod.fst = t.queue ∧
    t.queuePass = { u with
      queue := (List.range fates.length).filterMap fun k =>
        let anchor := fun e : PendingEntry =>
          if t.policy.anchorPasses ≤ e.passed then { e with anchored := true } else e
        match fates[k]? with
        | some (e, Fate.stayed) => some (anchor (if (fates.drop (k + 1)).any fun x => x.2 == Fate.granted
            then { e with passed := min 15 (e.passed + 1) } else e))
        | some (e, Fate.unvisited) => some (anchor e)
        | _ => none }) ∧
  (∀ (t : Tables) (pick : PendingEntry → Bool) (reason : RefuseReason), (t.queue.map PendingEntry.ticket).Nodup →
    (t.refuseEntries pick reason).queue = (t.queue.filter fun e => !pick e) ∧
    t.refuseEntries pick reason = (t.queue.filter pick).foldl
      (fun u e => (u.modifyStation e.station fun st => { st with queued := st.queued - 1 }).post e.station
        (.refused e.ticket reason)) { t with queue := t.queue.filter fun e => !pick e }) ∧
  ∀ (e : PendingEntry) (st : Station) (t : Tables), t.station? e.station = some st →
    (st.quota < st.held + e.count →
      t.visit e = (((t.setStation e.station (some { st with queued := st.queued - 1 })).post e.station
        (.refused e.ticket .quota)), .removed)) ∧
    (st.held + e.count ≤ st.quota →
      (t.choice e.count e.contiguous = none ∨ t.noneFree → t.visit e = (t, .stayed)) ∧
      ∀ slots i, t.choice e.count e.contiguous = some slots → t.lowestFree i →
        ∃ term, term = t.policy.clip (e.term.getD 0) ∧
        t.visit e = ((((t.createLease i
            { owner := e.station, slots := slots, term := .ofTerm term, warned := false, idleLimit := e.idleLimit,
              idleCount := 0, pinned := false, listeners := [], phase := .active }).modifyStation e.station
            fun x => { x with queued := x.queued - 1 }).post e.station
          (.granted e.ticket ⟨i, (t.entry i).epoch.toNat⟩ slots term)), .granted))

/-! ### What every step keeps -/

/-- The reset state meets every invariant below. -/
def Obligations.ResetMeetsInvariants : Prop :=
  State.reset.te.shaped ∧ State.reset.te.coolingBounded ∧ State.reset.te.leasesSound ∧ State.reset.te.noticesNumbered ∧
    State.reset.te.queueOrdered ∧ State.reset.te.mapMatchesLeases ∧
    State.reset.te.countsTrue ∧ State.reset.te.namesPresent ∧ State.reset.arbiter.expiries.Pairwise (· < ·) ∧ State.reset.trunk.ranged ∧ State.reset.imagesWhole

/-- Every step keeps the shape of the table store: the policy values in their ranges, the slots from 1 to SA in the stream
area and those above OUTSIDE (1.1, 10.4). So shaped, it keeps every cool count from 1 to 15 and every linger count below
LINGER_LIMIT (1.5), every pinned lease ACTIVE and every end deadline from 1 to 15 (2.2, 2.6). -/
def Obligations.StepKeepsShape : Prop :=
  ∀ s t : State, s.te.shaped → step s = .next t →
    t.te.shaped ∧ (s.te.coolingBounded → t.te.coolingBounded) ∧ (s.te.leasesSound → t.te.leasesSound)

/-- Every step keeps each notice queue at 4 notices at most with consecutive numbers (6.1). -/
def Obligations.StepKeepsNoticesNumbered : Prop :=
  ∀ s t : State, s.te.sized → s.te.noticesNumbered → step s = .next t → t.te.noticesNumbered

/-- Every step keeps the queue at 16 entries at most, in priority order, with distinct tickets (3.2), and the silence expiries
that wait at the arbiter in strictly ascending order of address (2.1). -/
def Obligations.StepKeepsQueueOrdered : Prop :=
  (∀ s t : State, s.te.queueOrdered → step s = .next t → t.te.queueOrdered) ∧
  ∀ s t : State, s.arbiter.expiries.Pairwise (· < ·) → step s = .next t → t.arbiter.expiries.Pairwise (· < ·)

/-- Every step keeps the slot map and the lease table in agreement: a slot is LEASED with an index exactly when that entry's
lease holds it, so no slot stands in two leases (1.2). -/
def Obligations.StepKeepsMapMatchingLeases : Prop :=
  ∀ s t : State, s.te.shaped → s.te.queueOrdered → s.te.mapMatchesLeases → step s = .next t → t.te.mapMatchesLeases

/-- Every step keeps the station counts equal to what they count, and keeps owners, listeners and queued stations present
(2.7, 4.2). -/
def Obligations.StepKeepsCountsTrue : Prop :=
  ∀ s t : State, s.te.shaped → s.te.queueOrdered → s.te.countsTrue → s.te.namesPresent → step s = .next t →
    t.te.countsTrue ∧ t.te.namesPresent

/-- Every step keeps the fields of the Trunk Monitor in their ranges (8.2). Every step keeps the images of the Beacon
Generator whole, and holds none while the trunk is not held (9.2 to 9.4). -/
def Obligations.StepKeepsTrunkAndBeacon : Prop :=
  (∀ s t : State, s.trunk.ranged → step s = .next t → t.trunk.ranged) ∧
  ∀ s t : State, s.imagesWhole → step s = .next t → t.imagesWhole

/-- An alarm flag once set stays set through every command but CLEAR_ALARMS, SOFT_RESET and a power-on reset (10.5). -/
def Obligations.AlarmFlagsStaySet : Prop :=
  ∀ (c : Instr) (a : Alarm) (s t : State), (∀ w, c ≠ .clearAlarms w) → (∀ f, c ≠ .softReset f) → c ≠ .powerOnReset →
    exec c s = .next t → s.te.alarmSet a = true → t.te.alarmSet a = true
end

