-- ==== Sys2Proof/Laws/State.lean ====
section
/-! SUPPORT. One lemma per field per update of the records, each true by computation, and reading back what was written. -/

namespace Sys2Proof.Machine

/-! ### Reading and writing by number -/

theorem nth?_zero {α : Type} (l : List α) : nth? l 0 = none := rfl

theorem nth?_succ {α : Type} (l : List α) (n : Nat) : nth? l (n + 1) = l[n]? := by simp [nth?]

@[simp] theorem length_setNth {α : Type} (l : List α) (n : Nat) (v : α) : (setNth l n v).length = l.length := by
  unfold setNth; split <;> simp

/-- Reading back what was written, at its own number. -/
theorem nth?_setNth_self {α : Type} (l : List α) (n : Nat) (v : α) (h1 : 1 ≤ n) (h2 : n ≤ l.length) :
    nth? (setNth l n v) n = some v := by
  have h0 : n ≠ 0 := by omega
  have hlt : n - 1 < l.length := by omega
  simp [nth?, setNth, h0, hlt]

/-- A write leaves every other number alone. -/
theorem nth?_setNth_ne {α : Type} (l : List α) (n m : Nat) (v : α) (h : m ≠ n) : nth? (setNth l n v) m = nth? l m := by
  by_cases hn : n = 0
  · simp [setNth, hn]
  · by_cases hm : m = 0
    · simp [nth?, hm]
    · have : n - 1 ≠ m - 1 := by omega
      simp [nth?, setNth, hn, hm, this]

/-- A number past the end reads the same after any write. -/
theorem nth?_setNth_past {α : Type} (l : List α) (n m : Nat) (v : α) (h : m = 0 ∨ l.length < m) :
    nth? (setNth l n v) m = nth? l m := by
  rcases h with h | h
  · simp [nth?, h]
  · have hm : m ≠ 0 := by omega
    have h1 : l.length ≤ m - 1 := by omega
    simp [nth?, hm, h1]

/-! ### Slot records -/

@[simp] theorem setSlot_leases (t : Tables) (n : Nat) (v : Slot) : (t.setSlot n v).leases = t.leases := rfl
@[simp] theorem setSlot_queue (t : Tables) (n : Nat) (v : Slot) : (t.setSlot n v).queue = t.queue := rfl
@[simp] theorem setSlot_ticket (t : Tables) (n : Nat) (v : Slot) : (t.setSlot n v).ticket = t.ticket := rfl
@[simp] theorem setSlot_stations (t : Tables) (n : Nat) (v : Slot) : (t.setSlot n v).stations = t.stations := rfl
@[simp] theorem setSlot_policy (t : Tables) (n : Nat) (v : Slot) : (t.setSlot n v).policy = t.policy := rfl
@[simp] theorem setSlot_mapEpoch (t : Tables) (n : Nat) (v : Slot) : (t.setSlot n v).mapEpoch = t.mapEpoch := rfl
@[simp] theorem setSlot_reference (t : Tables) (n : Nat) (v : Slot) : (t.setSlot n v).reference = t.reference := rfl
@[simp] theorem setSlot_alarms (t : Tables) (n : Nat) (v : Slot) : (t.setSlot n v).alarms = t.alarms := rfl
@[simp] theorem setSlot_entry (t : Tables) (n i : Nat) (v : Slot) : (t.setSlot n v).entry i = t.entry i := rfl
@[simp] theorem setSlot_lease? (t : Tables) (n i : Nat) (v : Slot) : (t.setSlot n v).lease? i = t.lease? i := rfl
@[simp] theorem setSlot_station? (t : Tables) (n a : Nat) (v : Slot) : (t.setSlot n v).station? a = t.station? a := rfl
@[simp] theorem setSlot_length (t : Tables) (n : Nat) (v : Slot) : (t.setSlot n v).slots.length = t.slots.length := by
  simp [Tables.setSlot]

theorem setSlot_slot_self (t : Tables) (n : Nat) (v : Slot) (h1 : 1 ≤ n) (h2 : n ≤ t.slots.length) :
    (t.setSlot n v).slot n = v := by
  simp [Tables.slot, Tables.setSlot, nth?_setNth_self _ _ _ h1 h2]

theorem setSlot_slot_ne (t : Tables) (n m : Nat) (v : Slot) (h : m ≠ n) : (t.setSlot n v).slot m = t.slot m := by
  simp [Tables.slot, Tables.setSlot, nth?_setNth_ne _ _ _ _ h]

/-! ### Lease entries -/

@[simp] theorem setLease_slots (t : Tables) (i : Nat) (l : Lease) : (t.setLease i l).slots = t.slots := rfl
@[simp] theorem setLease_queue (t : Tables) (i : Nat) (l : Lease) : (t.setLease i l).queue = t.queue := rfl
@[simp] theorem setLease_ticket (t : Tables) (i : Nat) (l : Lease) : (t.setLease i l).ticket = t.ticket := rfl
@[simp] theorem setLease_stations (t : Tables) (i : Nat) (l : Lease) : (t.setLease i l).stations = t.stations := rfl
@[simp] theorem setLease_policy (t : Tables) (i : Nat) (l : Lease) : (t.setLease i l).policy = t.policy := rfl
@[simp] theorem setLease_mapEpoch (t : Tables) (i : Nat) (l : Lease) : (t.setLease i l).mapEpoch = t.mapEpoch := rfl
@[simp] theorem setLease_reference (t : Tables) (i : Nat) (l : Lease) : (t.setLease i l).reference = t.reference := rfl
@[simp] theorem setLease_alarms (t : Tables) (i : Nat) (l : Lease) : (t.setLease i l).alarms = t.alarms := rfl
@[simp] theorem setLease_slot (t : Tables) (i n : Nat) (l : Lease) : (t.setLease i l).slot n = t.slot n := rfl
@[simp] theorem setLease_station? (t : Tables) (i a : Nat) (l : Lease) : (t.setLease i l).station? a = t.station? a := rfl
@[simp] theorem setLease_length (t : Tables) (i : Nat) (l : Lease) :
    (t.setLease i l).leases.length = t.leases.length := by
  simp [Tables.setLease]

theorem setLease_entry_self (t : Tables) (i : Nat) (l : Lease) (h1 : 1 ≤ i) (h2 : i ≤ t.leases.length) :
    (t.setLease i l).entry i = ⟨(t.entry i).epoch, some l⟩ := by
  simp [Tables.setLease, Tables.entry, nth?_setNth_self _ _ _ h1 h2]

theorem setLease_entry_ne (t : Tables) (i j : Nat) (l : Lease) (h : j ≠ i) :
    (t.setLease i l).entry j = t.entry j := by
  simp [Tables.setLease, Tables.entry, nth?_setNth_ne _ _ _ _ h]

@[simp] theorem freeEntry_slots (t : Tables) (i : Nat) : (t.freeEntry i).slots = t.slots := rfl
@[simp] theorem freeEntry_queue (t : Tables) (i : Nat) : (t.freeEntry i).queue = t.queue := rfl
@[simp] theorem freeEntry_ticket (t : Tables) (i : Nat) : (t.freeEntry i).ticket = t.ticket := rfl
@[simp] theorem freeEntry_stations (t : Tables) (i : Nat) : (t.freeEntry i).stations = t.stations := rfl
@[simp] theorem freeEntry_policy (t : Tables) (i : Nat) : (t.freeEntry i).policy = t.policy := rfl
@[simp] theorem freeEntry_mapEpoch (t : Tables) (i : Nat) : (t.freeEntry i).mapEpoch = t.mapEpoch := rfl
@[simp] theorem freeEntry_reference (t : Tables) (i : Nat) : (t.freeEntry i).reference = t.reference := rfl
@[simp] theorem freeEntry_alarms (t : Tables) (i : Nat) : (t.freeEntry i).alarms = t.alarms := rfl
@[simp] theorem freeEntry_length (t : Tables) (i : Nat) : (t.freeEntry i).leases.length = t.leases.length := by
  simp [Tables.freeEntry]

theorem freeEntry_entry_self (t : Tables) (i : Nat) (h1 : 1 ≤ i) (h2 : i ≤ t.leases.length) :
    (t.freeEntry i).entry i = ⟨(t.entry i).epoch + 1, none⟩ := by
  simp [Tables.freeEntry, Tables.entry, nth?_setNth_self _ _ _ h1 h2]

theorem freeEntry_entry_ne (t : Tables) (i j : Nat) (h : j ≠ i) : (t.freeEntry i).entry j = t.entry j := by
  simp [Tables.freeEntry, Tables.entry, nth?_setNth_ne _ _ _ _ h]

/-! ### Stations -/

@[simp] theorem setStation_slots (t : Tables) (a : Nat) (x : Option Station) : (t.setStation a x).slots = t.slots := rfl
@[simp] theorem setStation_leases (t : Tables) (a : Nat) (x : Option Station) : (t.setStation a x).leases = t.leases := rfl
@[simp] theorem setStation_queue (t : Tables) (a : Nat) (x : Option Station) : (t.setStation a x).queue = t.queue := rfl
@[simp] theorem setStation_ticket (t : Tables) (a : Nat) (x : Option Station) : (t.setStation a x).ticket = t.ticket := rfl
@[simp] theorem setStation_policy (t : Tables) (a : Nat) (x : Option Station) : (t.setStation a x).policy = t.policy := rfl
@[simp] theorem setStation_mapEpoch (t : Tables) (a : Nat) (x : Option Station) :
    (t.setStation a x).mapEpoch = t.mapEpoch := rfl
@[simp] theorem setStation_reference (t : Tables) (a : Nat) (x : Option Station) :
    (t.setStation a x).reference = t.reference := rfl
@[simp] theorem setStation_alarms (t : Tables) (a : Nat) (x : Option Station) : (t.setStation a x).alarms = t.alarms := rfl
@[simp] theorem setStation_slot (t : Tables) (a n : Nat) (x : Option Station) : (t.setStation a x).slot n = t.slot n := rfl
@[simp] theorem setStation_entry (t : Tables) (a i : Nat) (x : Option Station) :
    (t.setStation a x).entry i = t.entry i := rfl
@[simp] theorem setStation_lease? (t : Tables) (a i : Nat) (x : Option Station) :
    (t.setStation a x).lease? i = t.lease? i := rfl
@[simp] theorem setStation_length (t : Tables) (a : Nat) (x : Option Station) :
    (t.setStation a x).stations.length = t.stations.length := by
  simp [Tables.setStation]

theorem setStation_station?_self (t : Tables) (a : Nat) (x : Option Station) (h1 : 1 ≤ a) (h2 : a ≤ t.stations.length) :
    (t.setStation a x).station? a = x := by
  simp [Tables.setStation, Tables.station?, nth?_setNth_self _ _ _ h1 h2]

theorem setStation_station?_ne (t : Tables) (a b : Nat) (x : Option Station) (h : b ≠ a) :
    (t.setStation a x).station? b = t.station? b := by
  simp [Tables.setStation, Tables.station?, nth?_setNth_ne _ _ _ _ h]

/-- Only an address with a place can be present. -/
theorem station?_isSome_range (t : Tables) (a : Nat) (st : Station) (h : t.station? a = some st) :
    1 ≤ a ∧ a ≤ t.stations.length := by
  by_cases h0 : a = 0
  · simp [Tables.station?, nth?, h0] at h
  · refine ⟨by omega, ?_⟩
    by_contra hlt
    have : t.stations.length ≤ a - 1 := by omega
    simp [Tables.station?, nth?, h0, this] at h

theorem modifyStation_none (t : Tables) (a : Nat) (f : Station → Station) (h : t.station? a = none) :
    t.modifyStation a f = t := by
  simp [Tables.modifyStation, h]

theorem modifyStation_some (t : Tables) (a : Nat) (f : Station → Station) (st : Station) (h : t.station? a = some st) :
    t.modifyStation a f = t.setStation a (some (f st)) := by
  simp [Tables.modifyStation, h]

/-- A station's entry after a change of the entry of one address. -/
theorem modifyStation_station? (t : Tables) (a b : Nat) (f : Station → Station) :
    (t.modifyStation a f).station? b = if b = a then (t.station? a).map f else t.station? b := by
  cases h : t.station? a with
  | none =>
    rw [modifyStation_none _ _ _ h]
    split
    · simp_all
    · rfl
  | some st =>
    rw [modifyStation_some _ _ _ _ h]
    have hr := station?_isSome_range _ _ _ h
    split
    · subst b; simp [setStation_station?_self _ _ _ hr.1 hr.2]
    · rw [setStation_station?_ne _ _ _ _ ‹_›]

@[simp] theorem modifyStation_slots (t : Tables) (a : Nat) (f : Station → Station) :
    (t.modifyStation a f).slots = t.slots := by
  unfold Tables.modifyStation; split <;> rfl
@[simp] theorem modifyStation_leases (t : Tables) (a : Nat) (f : Station → Station) :
    (t.modifyStation a f).leases = t.leases := by
  unfold Tables.modifyStation; split <;> rfl
@[simp] theorem modifyStation_queue (t : Tables) (a : Nat) (f : Station → Station) :
    (t.modifyStation a f).queue = t.queue := by
  unfold Tables.modifyStation; split <;> rfl
@[simp] theorem modifyStation_ticket (t : Tables) (a : Nat) (f : Station → Station) :
    (t.modifyStation a f).ticket = t.ticket := by
  unfold Tables.modifyStation; split <;> rfl
@[simp] theorem modifyStation_policy (t : Tables) (a : Nat) (f : Station → Station) :
    (t.modifyStation a f).policy = t.policy := by
  unfold Tables.modifyStation; split <;> rfl
@[simp] theorem modifyStation_mapEpoch (t : Tables) (a : Nat) (f : Station → Station) :
    (t.modifyStation a f).mapEpoch = t.mapEpoch := by
  unfold Tables.modifyStation; split <;> rfl
@[simp] theorem modifyStation_reference (t : Tables) (a : Nat) (f : Station → Station) :
    (t.modifyStation a f).reference = t.reference := by
  unfold Tables.modifyStation; split <;> rfl
@[simp] theorem modifyStation_alarms (t : Tables) (a : Nat) (f : Station → Station) :
    (t.modifyStation a f).alarms = t.alarms := by
  unfold Tables.modifyStation; split <;> rfl
@[simp] theorem modifyStation_slot (t : Tables) (a n : Nat) (f : Station → Station) :
    (t.modifyStation a f).slot n = t.slot n := by
  simp [Tables.slot]
@[simp] theorem modifyStation_entry (t : Tables) (a i : Nat) (f : Station → Station) :
    (t.modifyStation a f).entry i = t.entry i := by
  simp [Tables.entry]
@[simp] theorem modifyStation_lease? (t : Tables) (a i : Nat) (f : Station → Station) :
    (t.modifyStation a f).lease? i = t.lease? i := by
  simp [Tables.lease?]
@[simp] theorem modifyStation_length (t : Tables) (a : Nat) (f : Station → Station) :
    (t.modifyStation a f).stations.length = t.stations.length := by
  unfold Tables.modifyStation; split <;> simp

/-! ### A station that has been heard -/

@[simp] theorem heard_slots (t : Tables) (a : Nat) (st : Station) : (t.heard a st).slots = t.slots := rfl
@[simp] theorem heard_leases (t : Tables) (a : Nat) (st : Station) : (t.heard a st).leases = t.leases := rfl
@[simp] theorem heard_queue (t : Tables) (a : Nat) (st : Station) : (t.heard a st).queue = t.queue := rfl
@[simp] theorem heard_ticket (t : Tables) (a : Nat) (st : Station) : (t.heard a st).ticket = t.ticket := rfl
@[simp] theorem heard_policy (t : Tables) (a : Nat) (st : Station) : (t.heard a st).policy = t.policy := rfl
@[simp] theorem heard_alarms (t : Tables) (a : Nat) (st : Station) : (t.heard a st).alarms = t.alarms := rfl
@[simp] theorem heard_slot (t : Tables) (a n : Nat) (st : Station) : (t.heard a st).slot n = t.slot n := rfl
@[simp] theorem heard_slotState? (t : Tables) (a n : Nat) (st : Station) :
    (t.heard a st).slotState? n = t.slotState? n := rfl
@[simp] theorem heard_entry (t : Tables) (a i : Nat) (st : Station) : (t.heard a st).entry i = t.entry i := rfl
@[simp] theorem heard_lease? (t : Tables) (a i : Nat) (st : Station) : (t.heard a st).lease? i = t.lease? i := rfl
@[simp] theorem heard_validLease? (t : Tables) (a : Nat) (st : Station) (h : Handle) :
    (t.heard a st).validLease? h = t.validLease? h := rfl
@[simp] theorem heard_choice (t : Tables) (a count : Nat) (st : Station) (c : Bool) :
    (t.heard a st).choice count c = t.choice count c := rfl
@[simp] theorem heard_freeIndex? (t : Tables) (a : Nat) (st : Station) : (t.heard a st).freeIndex? = t.freeIndex? := rfl

/-! ### Alarm flags -/

@[simp] theorem raise_slots (t : Tables) (a : Alarm) : (t.raise a).slots = t.slots := rfl
@[simp] theorem raise_leases (t : Tables) (a : Alarm) : (t.raise a).leases = t.leases := rfl
@[simp] theorem raise_queue (t : Tables) (a : Alarm) : (t.raise a).queue = t.queue := rfl
@[simp] theorem raise_ticket (t : Tables) (a : Alarm) : (t.raise a).ticket = t.ticket := rfl
@[simp] theorem raise_stations (t : Tables) (a : Alarm) : (t.raise a).stations = t.stations := rfl
@[simp] theorem raise_policy (t : Tables) (a : Alarm) : (t.raise a).policy = t.policy := rfl
@[simp] theorem raise_mapEpoch (t : Tables) (a : Alarm) : (t.raise a).mapEpoch = t.mapEpoch := rfl
@[simp] theorem raise_reference (t : Tables) (a : Alarm) : (t.raise a).reference = t.reference := rfl
@[simp] theorem raise_slot (t : Tables) (a : Alarm) (n : Nat) : (t.raise a).slot n = t.slot n := rfl
@[simp] theorem raise_entry (t : Tables) (a : Alarm) (i : Nat) : (t.raise a).entry i = t.entry i := rfl
@[simp] theorem raise_lease? (t : Tables) (a : Alarm) (i : Nat) : (t.raise a).lease? i = t.lease? i := rfl
@[simp] theorem raise_station? (t : Tables) (a : Alarm) (b : Nat) : (t.raise a).station? b = t.station? b := rfl

/-- A flag is set after a raise when it is the one raised or was set before. -/
theorem raise_alarmSet (t : Tables) (a b : Alarm) : (t.raise a).alarmSet b = (t.alarmSet b || a == b) := by
  cases a <;> cases b <;> simp [Tables.raise, Tables.alarmSet, Alarm.mask, Alarm.bit]

/-! ### The state around the tables -/

@[simp] theorem setExchange_te (s : State) (x : Exchange) : (s.setExchange x).te = s.te := rfl
@[simp] theorem setExchange_arbiter (s : State) (x : Exchange) : (s.setExchange x).arbiter = s.arbiter := rfl
@[simp] theorem setExchange_exchange (s : State) (x : Exchange) : (s.setExchange x).line.exchange = x := rfl
@[simp] theorem setExchange_schedule (s : State) (x : Exchange) :
    (s.setExchange x).line.schedule = s.line.schedule := rfl
@[simp] theorem setExchange_trunk (s : State) (x : Exchange) : (s.setExchange x).trunk = s.trunk := rfl
@[simp] theorem setExchange_beacon (s : State) (x : Exchange) : (s.setExchange x).beacon = s.beacon := rfl
@[simp] theorem setExchange_port (s : State) (x : Exchange) : (s.setExchange x).port = s.port := rfl
@[simp] theorem setExchange_pending (s : State) (x : Exchange) : (s.setExchange x).pending = s.pending := rfl
@[simp] theorem setExchange_trunkHeld (s : State) (x : Exchange) : (s.setExchange x).trunkHeld = s.trunkHeld := rfl

@[simp] theorem setStationOp_te (s : State) (op : Option StationOp) : (s.setStationOp op).te = s.te := rfl
@[simp] theorem setStationOp_station (s : State) (op : Option StationOp) : (s.setStationOp op).arbiter.station = op := rfl
@[simp] theorem setStationOp_closes (s : State) (op : Option StationOp) :
    (s.setStationOp op).arbiter.closes = s.arbiter.closes := rfl
@[simp] theorem setStationOp_expiries (s : State) (op : Option StationOp) :
    (s.setStationOp op).arbiter.expiries = s.arbiter.expiries := rfl
@[simp] theorem setStationOp_line (s : State) (op : Option StationOp) : (s.setStationOp op).line = s.line := rfl
@[simp] theorem setStationOp_trunk (s : State) (op : Option StationOp) : (s.setStationOp op).trunk = s.trunk := rfl
@[simp] theorem setStationOp_beacon (s : State) (op : Option StationOp) : (s.setStationOp op).beacon = s.beacon := rfl
@[simp] theorem setStationOp_port (s : State) (op : Option StationOp) : (s.setStationOp op).port = s.port := rfl
@[simp] theorem setStationOp_pending (s : State) (op : Option StationOp) : (s.setStationOp op).pending = s.pending := rfl

@[simp] theorem abandonExchange_te (s : State) : s.abandonExchange.te = s.te := rfl
@[simp] theorem abandonExchange_arbiter (s : State) : s.abandonExchange.arbiter = s.arbiter := rfl
@[simp] theorem abandonExchange_exchange (s : State) : s.abandonExchange.line.exchange = s.line.exchange.abandoned := rfl
@[simp] theorem abandonExchange_schedule (s : State) : s.abandonExchange.line.schedule = .restart := rfl
@[simp] theorem abandonExchange_trunk (s : State) : s.abandonExchange.trunk = s.trunk := rfl
@[simp] theorem abandonExchange_beacon (s : State) : s.abandonExchange.beacon = s.beacon := rfl
@[simp] theorem abandonExchange_port (s : State) : s.abandonExchange.port = s.port := rfl
@[simp] theorem abandonExchange_pending (s : State) : s.abandonExchange.pending = s.pending := rfl

@[simp] theorem setSync_te (s : State) (y : Sync) : (s.setSync y).te = s.te := rfl
@[simp] theorem setSync_arbiter (s : State) (y : Sync) : (s.setSync y).arbiter = s.arbiter := rfl
@[simp] theorem setSync_line (s : State) (y : Sync) : (s.setSync y).line = s.line := rfl
@[simp] theorem setSync_sync (s : State) (y : Sync) : (s.setSync y).trunk.sync = y := rfl
@[simp] theorem setSync_tfsWasLow (s : State) (y : Sync) : (s.setSync y).trunk.tfsWasLow = s.trunk.tfsWasLow := rfl
@[simp] theorem setSync_tclkWatch (s : State) (y : Sync) : (s.setSync y).trunk.tclkWatch = s.trunk.tclkWatch := rfl
@[simp] theorem setSync_beacon (s : State) (y : Sync) : (s.setSync y).beacon = s.beacon := rfl
@[simp] theorem setSync_port (s : State) (y : Sync) : (s.setSync y).port = s.port := rfl
@[simp] theorem setSync_pending (s : State) (y : Sync) : (s.setSync y).pending = s.pending := rfl

@[simp] theorem responded_te (s : State) (te : Tables) (c : Byte) (r : CmdResult) (b : List Byte) :
    (s.responded te c r b).te = te := rfl
@[simp] theorem responded_mailbox (s : State) (te : Tables) (c : Byte) (r : CmdResult) (b : List Byte) :
    (s.responded te c r b).port.mailbox = .done ⟨c, r, b⟩ := rfl
@[simp] theorem responded_trunk (s : State) (te : Tables) (c : Byte) (r : CmdResult) (b : List Byte) :
    (s.responded te c r b).trunk = s.trunk := rfl
@[simp] theorem responded_beacon (s : State) (te : Tables) (c : Byte) (r : CmdResult) (b : List Byte) :
    (s.responded te c r b).beacon = s.beacon := rfl
@[simp] theorem responded_line (s : State) (te : Tables) (c : Byte) (r : CmdResult) (b : List Byte) :
    (s.responded te c r b).line = s.line := rfl
@[simp] theorem responded_arbiter (s : State) (te : Tables) (c : Byte) (r : CmdResult) (b : List Byte) :
    (s.responded te c r b).arbiter = s.arbiter := rfl
@[simp] theorem responded_pending (s : State) (te : Tables) (c : Byte) (r : CmdResult) (b : List Byte) :
    (s.responded te c r b).pending = s.pending := rfl

@[simp] theorem repliedWith_te (s : State) (te : Tables) (a : Nat) (q : BitVec 4) (b : Option (List Byte)) :
    (s.repliedWith te a q b).te = te := rfl
@[simp] theorem repliedWith_trunk (s : State) (te : Tables) (a : Nat) (q : BitVec 4) (b : Option (List Byte)) :
    (s.repliedWith te a q b).trunk = s.trunk := rfl
@[simp] theorem repliedWith_beacon (s : State) (te : Tables) (a : Nat) (q : BitVec 4) (b : Option (List Byte)) :
    (s.repliedWith te a q b).beacon = s.beacon := rfl
@[simp] theorem repliedWith_port (s : State) (te : Tables) (a : Nat) (q : BitVec 4) (b : Option (List Byte)) :
    (s.repliedWith te a q b).port = s.port := rfl
@[simp] theorem repliedWith_schedule (s : State) (te : Tables) (a : Nat) (q : BitVec 4) (b : Option (List Byte)) :
    (s.repliedWith te a q b).line.schedule = s.line.schedule := rfl
@[simp] theorem repliedWith_pending (s : State) (te : Tables) (a : Nat) (q : BitVec 4) (b : Option (List Byte)) :
    (s.repliedWith te a q b).pending = s.pending := rfl

end Sys2Proof.Machine
end

