-- ==== Sys2Proof/Laws/Operations.lean ====
section
/-! SUPPORT. What the shared operations over the tables can do, and how a row reaches its operation. -/

namespace Sys2Proof.Machine

/-! ### The slot map -/

/-- A change of state of one slot: it keeps last activity, leaves a slot without a record alone, and no other slot moves. -/
theorem setSlotState_slot (t : Tables) (n m : Nat) (st : SlotState) :
    (t.setSlotState n st).slot m =
      if m = n then (match t.slot n with
        | .outside => .outside
        | .inArea _ last => .inArea st last)
      else t.slot m := by
  unfold Tables.setSlotState
  cases h : t.slot n with
  | outside => by_cases hm : m = n <;> simp [hm, h]
  | inArea old last =>
    by_cases hm : m = n
    · subst hm
      have h1 : 1 ≤ m := by
        by_contra h0; simp [Tables.slot, nth?, show m = 0 by omega] at h
      have h2 : m ≤ t.slots.length := by
        by_contra h0
        have : t.slots.length ≤ m - 1 := by omega
        simp [Tables.slot, nth?, this, show m ≠ 0 by omega] at h
      simp [setSlot_slot_self _ _ _ h1 h2]
    · simp [hm, setSlot_slot_ne _ _ _ _ hm]

/-- A change of state of a slot touches the slot map alone. -/
theorem setSlotState_eq (t : Tables) (n : Nat) (st : SlotState) :
    ∃ slots, t.setSlotState n st = { t with slots := slots } ∧ slots.length = t.slots.length := by
  unfold Tables.setSlotState
  split
  · exact ⟨t.slots, rfl, rfl⟩
  · exact ⟨_, rfl, by simp⟩

@[simp] theorem setSlotState_leases (t : Tables) (n : Nat) (st : SlotState) :
    (t.setSlotState n st).leases = t.leases := by
  obtain ⟨_, h, _⟩ := setSlotState_eq t n st; rw [h]
@[simp] theorem setSlotState_queue (t : Tables) (n : Nat) (st : SlotState) :
    (t.setSlotState n st).queue = t.queue := by
  obtain ⟨_, h, _⟩ := setSlotState_eq t n st; rw [h]
@[simp] theorem setSlotState_stations (t : Tables) (n : Nat) (st : SlotState) :
    (t.setSlotState n st).stations = t.stations := by
  obtain ⟨_, h, _⟩ := setSlotState_eq t n st; rw [h]
@[simp] theorem setSlotState_policy (t : Tables) (n : Nat) (st : SlotState) :
    (t.setSlotState n st).policy = t.policy := by
  obtain ⟨_, h, _⟩ := setSlotState_eq t n st; rw [h]
@[simp] theorem setSlotState_length (t : Tables) (n : Nat) (st : SlotState) :
    (t.setSlotState n st).slots.length = t.slots.length := by
  obtain ⟨_, h, hl⟩ := setSlotState_eq t n st; rw [h]; exact hl

/-- Several slots changed to one state. -/
theorem setSlotStates_slot (ns : List Nat) (st : SlotState) (m : Nat) (t : Tables) :
    (t.setSlotStates ns st).slot m =
      match t.slot m with
      | .outside => .outside
      | .inArea old last => .inArea (if m ∈ ns then st else old) last := by
  unfold Tables.setSlotStates
  induction ns generalizing t with
  | nil => simp only [List.foldl_nil, List.not_mem_nil, if_false]; split <;> simp_all
  | cons n ns ih =>
    rw [List.foldl_cons, ih, setSlotState_slot]
    by_cases hm : m = n
    · subst hm; cases t.slot m <;> simp
    · simp [hm]

/-- Several slots changed: the slot map alone is touched. -/
theorem setSlotStates_eq (ns : List Nat) (st : SlotState) (t : Tables) :
    ∃ slots, t.setSlotStates ns st = { t with slots := slots } ∧ slots.length = t.slots.length := by
  unfold Tables.setSlotStates
  induction ns generalizing t with
  | nil => exact ⟨t.slots, rfl, rfl⟩
  | cons n ns ih =>
    obtain ⟨s1, h1, l1⟩ := setSlotState_eq t n st
    obtain ⟨s2, h2, l2⟩ := ih (t.setSlotState n st)
    refine ⟨s2, ?_, ?_⟩
    · rw [List.foldl_cons, h2, h1]
    · rw [l2, h1]; exact l1

/-! ### Notices -/

/-- A posting touches one station's notice queue and the alarm flags alone. -/
theorem post_frame (t : Tables) (a : Nat) (c : NoticeContent) :
    (t.post a c).slots = t.slots ∧ (t.post a c).leases = t.leases ∧ (t.post a c).queue = t.queue ∧
      (t.post a c).ticket = t.ticket ∧ (t.post a c).policy = t.policy ∧ (t.post a c).mapEpoch = t.mapEpoch ∧
      (t.post a c).reference = t.reference ∧ (t.post a c).stations.length = t.stations.length := by
  unfold Tables.post
  split
  · simp
  · split <;> simp

@[simp] theorem post_slots (t : Tables) (a : Nat) (c : NoticeContent) : (t.post a c).slots = t.slots := (post_frame t a c).1
@[simp] theorem post_leases (t : Tables) (a : Nat) (c : NoticeContent) : (t.post a c).leases = t.leases :=
  (post_frame t a c).2.1
@[simp] theorem post_queue (t : Tables) (a : Nat) (c : NoticeContent) : (t.post a c).queue = t.queue :=
  (post_frame t a c).2.2.1
@[simp] theorem post_ticket (t : Tables) (a : Nat) (c : NoticeContent) : (t.post a c).ticket = t.ticket :=
  (post_frame t a c).2.2.2.1
@[simp] theorem post_policy (t : Tables) (a : Nat) (c : NoticeContent) : (t.post a c).policy = t.policy :=
  (post_frame t a c).2.2.2.2.1

/-- A posting to one address leaves every other station as it was. -/
theorem post_station?_ne (t : Tables) (a b : Nat) (c : NoticeContent) (h : b ≠ a) :
    (t.post a c).station? b = t.station? b := by
  unfold Tables.post
  split
  · rfl
  · split
    · exact setStation_station?_ne _ _ _ _ h
    · rw [raise_station?]; exact setStation_station?_ne _ _ _ _ h

/-- What a posting leaves of a station: its notices, their next number and its overflow flag may change, nothing else. -/
theorem post_station? (t : Tables) (a b : Nat) (c : NoticeContent) :
    ((t.post a c).station? b).map (fun st => { st with notices := [], nextNotice := 0, overflow := false }) =
      (t.station? b).map fun st => { st with notices := [], nextNotice := 0, overflow := false } := by
  by_cases hb : b = a
  · subst hb
    unfold Tables.post
    cases h : t.station? b with
    | none => simp [h]
    | some st =>
      have hr := station?_isSome_range _ _ _ h
      by_cases hl : st.notices.length < Config.noticeMax <;>
        simp [hl, setStation_station?_self _ _ _ hr.1 hr.2, Station.queueNotice]
  · rw [post_station?_ne _ _ _ _ hb]

/-- A series of postings leaves the slot map, the lease table, the queue and the policy as they were. -/
theorem postAll_frame (as : List Nat) (c : NoticeContent) (t : Tables) :
    (t.postAll as c).slots = t.slots ∧ (t.postAll as c).leases = t.leases ∧ (t.postAll as c).queue = t.queue ∧
      (t.postAll as c).policy = t.policy := by
  unfold Tables.postAll
  induction as generalizing t with
  | nil => simp
  | cons a as ih => obtain ⟨h1, h2, h3, h4⟩ := ih (t.post a c); simp [h1, h2, h3, h4]

/-! ### Entries refused -/

/-- What the refusal of one entry does beside taking it out of the queue. -/
def Tables.tellRefused (reason : RefuseReason) (t : Tables) (e : PendingEntry) : Tables :=
  (t.modifyStation e.station .dropQueued).post e.station (.refused e.ticket reason)

/-- It neither reads nor changes the queue. -/
theorem tellRefused_withQueue (reason : RefuseReason) (t : Tables) (e : PendingEntry) (q : List PendingEntry) :
    Tables.tellRefused reason { t with queue := q } e = { Tables.tellRefused reason t e with queue := q } := by
  have hm : ({ t with queue := q } : Tables).modifyStation e.station .dropQueued =
      { t.modifyStation e.station .dropQueued with queue := q } := by
    unfold Tables.modifyStation
    show (match t.station? e.station with | none => _ | some st => _) = _
    cases t.station? e.station <;> rfl
  unfold Tables.tellRefused
  rw [hm]
  generalize t.modifyStation e.station .dropQueued = u
  unfold Tables.post
  show (match u.station? e.station with | none => _ | some st => _) = _
  cases u.station? e.station with
  | none => rfl
  | some st => simp only; split <;> rfl

theorem tellRefused_queue (reason : RefuseReason) (t : Tables) (e : PendingEntry) :
    (Tables.tellRefused reason t e).queue = t.queue := by
  simp [Tables.tellRefused]

theorem foldl_refuse (reason : RefuseReason) (es : List PendingEntry) (t : Tables) :
    es.foldl (fun t e => (t.removeEntry e.ticket e.station).post e.station (.refused e.ticket reason)) t =
      es.foldl (Tables.tellRefused reason) { t with queue := t.queue.filter fun x => decide (∀ e ∈ es, x.ticket ≠ e.ticket) } := by
  induction es generalizing t with
  | nil => simp
  | cons e es ih =>
    rw [List.foldl_cons, List.foldl_cons, ih]
    have h : ∀ q, Tables.tellRefused reason { t with queue := q } e = { Tables.tellRefused reason t e with queue := q } :=
      tellRefused_withQueue reason t e
    have hl : (t.removeEntry e.ticket e.station).post e.station (.refused e.ticket reason) =
        { Tables.tellRefused reason t e with queue := t.queue.filter fun x => x.ticket != e.ticket } :=
      h (t.queue.filter fun x => x.ticket != e.ticket)
    have hq : (t.queue.filter fun x => x.ticket != e.ticket).filter (fun x => decide (∀ e ∈ es, x.ticket ≠ e.ticket)) =
        t.queue.filter fun x => decide (∀ y ∈ e :: es, x.ticket ≠ y.ticket) := by
      rw [List.filter_filter]
      refine List.filter_congr fun x _ => ?_
      by_cases hx : x.ticket = e.ticket <;> simp [hx]
    rw [h, hl, ← hq]

/-- Entries refused by a test, when no two bear one ticket: they leave the queue, the others stay in order, and each station is
told in queue order. -/
theorem refuseEntries_eq (t : Tables) (pick : PendingEntry → Bool) (reason : RefuseReason)
    (h : (t.queue.map PendingEntry.ticket).Nodup) :
    t.refuseEntries pick reason =
      (t.queue.filter pick).foldl (Tables.tellRefused reason) { t with queue := t.queue.filter fun e => !pick e } := by
  unfold Tables.refuseEntries
  rw [foldl_refuse]
  congr 2
  refine List.filter_congr fun x hx => ?_
  by_cases hp : pick x
  · simp only [hp, List.mem_filter, Bool.not_true, decide_eq_false_iff_not]
    exact fun ha => ha x ⟨hx, hp⟩ rfl
  · simp only [hp, Bool.not_false, decide_eq_true_eq, List.mem_filter]
    exact fun y hy he => hp (List.inj_on_of_nodup_map h hx hy.1 he ▸ hy.2)

/-! ### Bits of a transaction -/

theorem foldl_pushBit (b : Byte) : ((List.range 8).map (shiftedBit b)).foldl pushBit 0 = b := by
  revert b; decide +kernel

/-- The bytes of whole bytes shifted in, whatever part of a byte follows them. -/
theorem bytesShifted_bits (bytes : List Byte) (extra : List Bool) (h : extra.length < 8) :
    bytesShifted ((bytes.flatMap fun b => (List.range 8).map (shiftedBit b)) ++ extra) = bytes := by
  induction bytes with
  | nil =>
    simp only [List.flatMap_nil, List.nil_append]
    unfold bytesShifted
    split
    · simp at h; omega
    · rfl
  | cons b bs ih =>
    have h8 : (List.range 8).map (shiftedBit b) = [shiftedBit b 0, shiftedBit b 1, shiftedBit b 2, shiftedBit b 3,
        shiftedBit b 4, shiftedBit b 5, shiftedBit b 6, shiftedBit b 7] := rfl
    have hb := foldl_pushBit b
    rw [h8] at hb
    rw [List.flatMap_cons, List.append_assoc, h8]
    simp only [List.cons_append, List.nil_append, bytesShifted]
    rw [hb, ih]

/-! ### How a row reaches its operation -/

theorem nextOperation?_busy (s : State) (c : List Byte) (h : s.port.mailbox = .busy c) :
    s.nextOperation? = some (.command c) := by
  simp [State.nextOperation?, h]

/-- A management row whose command the port holds takes it. -/
theorem manage_busy (s : State) (c : List Byte) (h : s.port.mailbox = .busy c) : s.manage c = s.performCommand c := by
  simp [State.manage, h, State.take, nextOperation?_busy s c h, State.perform]

/-- A command other than SOFT_RESET touches the tables and the port alone. -/
theorem performCommand_eq (s : State) (c : List Byte) (h : parseCommand s.te.policy.streamArea c ≠ .good .softReset) :
    s.performCommand c = s.responded (s.te.takeCommand s.trunk.sync c).tables (c.headD 0)
      (s.te.takeCommand s.trunk.sync c).result (s.te.takeCommand s.trunk.sync c).body := by
  simp [State.performCommand, h, State.responded]

/-- A refused command leaves the tables as they are. -/
theorem takeCommand_bad (t : Tables) (y : Sync) (c : List Byte) (r : CmdResult)
    (h : parseCommand t.policy.streamArea c = .bad r) : t.takeCommand y c = ⟨t, r, []⟩ := by
  simp [Tables.takeCommand, h, Tables.refuse]

theorem takeCommand_good (t : Tables) (y : Sync) (c : List Byte) (x : Command)
    (h : parseCommand t.policy.streamArea c = .good x) : t.takeCommand y c = t.runCommand y x := by
  simp [Tables.takeCommand, h]

/-- The arbiter's next operation is a station reply only when that reply waits. -/
theorem nextOperation?_station (s : State) (op : StationOp) (h : s.nextOperation? = some (.station op)) :
    s.arbiter.station = some op := by
  unfold State.nextOperation? at h
  split at h
  · simp at h
  · split at h
    · simp at h
    · split at h
      · simp at h
      · simpa using h

/-- A reply row whose reply is the arbiter's next operation performs it. -/
theorem replied_waiting (s : State) (f : ReplyFrame) (o : Bool)
    (h : s.nextOperation? = some (.station (.reply f o))) : s.replied f = s.performReply f o := by
  have hs := nextOperation?_station s _ h
  simp [State.replied, hs, State.takeHandedReply, State.take, h, State.perform]

/-- A reply performed: the tables as the reply leaves them, and the response on its way. -/
theorem performReply_eq (s : State) (f : ReplyFrame) (o : Bool) :
    s.performReply f o = s.repliedWith (s.te.takeReply f o).1 f.source f.seq (s.te.takeReply f o).2 := by
  unfold State.performReply
  generalize s.te.takeReply f o = r
  obtain ⟨te, body⟩ := r
  obtain ⟨te0, arb, ⟨x, sch⟩, tr, bc, pt, us, pe⟩ := s
  cases x <;> cases body <;> rfl

/-- The comparison of contents at stage 8 is that of SA and of the entries the change note names (R164). -/
theorem image_eq_reference_iff (t : Tables) (h : t.reference.entries.length = 63) :
    t.image = t.reference ↔ t.policy.streamArea = t.reference.area ∧ t.changeNote = [] := by
  rcases hr : t.reference with ⟨area, entries⟩
  rw [hr] at h
  simp only [Tables.image, hr, MapImage.mk.injEq, Tables.changeNote, List.filter_eq_nil_iff, bne_iff_ne, ne_eq, not_not]
  refine and_congr_right fun _ => ⟨fun he n hn => ?_, fun hn => ?_⟩
  · obtain ⟨h1, h2⟩ := List.mem_range'_1.mp (by simpa [slotNumbers] using hn)
    have h3 : n ≠ 0 := by omega
    subst he
    simp [nth?, h3, slotNumbers, show n - 1 < Config.slotCount by omega, show 1 + (n - 1) = n by omega]
  · apply List.ext_getElem?
    intro k
    by_cases hk : k < 63
    · have := hn (k + 1) (by simp [slotNumbers, Config.slotCount]; omega)
      rw [nth?_succ] at this
      rw [this]
      simp [slotNumbers, Config.slotCount, hk, Nat.add_comm]
    · simp [slotNumbers, Config.slotCount, h, hk]

/-- An operation out of its turn goes on waiting. -/
theorem take_other (s : State) (op : Operation) (h : s.nextOperation? ≠ some op) : s.take op = s := by
  simp [State.take, h]

theorem take_next (s : State) (op : Operation) (h : s.nextOperation? = some op) : s.take op = s.perform op := by
  simp [State.take, h]

/-- The event of a close is that close, when the record runs out in it. -/
theorem closeWith_next (s : State) (runOut : List Finding → List Nat) (record : Nat) (r : List Finding)
    (h : s.nextOperation? = some (.close r)) (hr : record ∈ runOut r) :
    s.closeWith runOut record = s.take (.close r) := by
  simp [State.closeWith, State.take, State.perform, h, hr]

/-- It changes nothing unless a close in which the record runs out is next. -/
theorem closeWith_other (s : State) (runOut : List Finding → List Nat) (record : Nat)
    (h : ∀ r, s.nextOperation? = some (.close r) → record ∉ runOut r) : s.closeWith runOut record = s := by
  unfold State.closeWith
  split
  · rw [if_neg (h _ ‹_›)]
  · rfl

/-- So every record is counted by closes alone: the event of a close is a close taken, or nothing. -/
theorem closeWith_cases (s : State) (runOut : List Finding → List Nat) (record : Nat) :
    s.closeWith runOut record = s ∨
      ∃ r, s.nextOperation? = some (.close r) ∧ s.closeWith runOut record = s.performClose r := by
  unfold State.closeWith
  split
  · next r h =>
    split
    · exact .inr ⟨r, h, rfl⟩
    · exact .inl rfl
  · exact .inl rfl

/-- An address joins the list of those waiting, and no other. -/
theorem mem_insertAddress (a x : Nat) (l : List Nat) : x ∈ insertAddress a l ↔ x = a ∨ x ∈ l := by
  induction l with
  | nil => simp [insertAddress]
  | cons b bs ih =>
    unfold insertAddress
    split
    · simp
    · split
      · next h => subst h; simp
      · simp only [List.mem_cons, ih]; tauto

/-- The list stays strictly ascending. -/
theorem insertAddress_pairwise (a : Nat) (l : List Nat) (h : l.Pairwise (· < ·)) : (insertAddress a l).Pairwise (· < ·) := by
  induction l with
  | nil => simp [insertAddress]
  | cons b bs ih =>
    obtain ⟨hb, hbs⟩ := List.pairwise_cons.mp h
    unfold insertAddress
    split
    · next hab => exact List.pairwise_cons.mpr ⟨fun y hy => by
        rcases List.mem_cons.mp hy with rfl | hy
        · exact hab
        · exact lt_trans hab (hb y hy), h⟩
    · split
      · exact h
      · refine List.pairwise_cons.mpr ⟨fun y hy => ?_, ih hbs⟩
        rcases (mem_insertAddress a y bs).mp hy with rfl | hy
        · omega
        · exact hb y hy

/-- The step takes the command at the front of the queue. -/
theorem step_cons (s : State) (c : Instr) (rest : List Instr) (h : s.pending = c :: rest) :
    ∃ s', s' = { s with pending := rest } ∧ step s = exec c s' := by
  exact ⟨_, rfl, by simp [step, h]⟩

end Sys2Proof.Machine
end

