-- ==== Sys2Proof/Laws/Parse.lean ====
section
/-! SUPPORT. What the reading of commands, requests and frames answers, form by form, so that no proof unfolds it. -/

namespace Sys2Proof.Machine

/-! ### Ranges -/

theorem within_iff (low n high : Nat) : within low n high = true ↔ low ≤ n ∧ n ≤ high := by
  simp [within]

theorem inArea_iff (area n : Nat) : inArea area n = true ↔ 1 ≤ n ∧ n ≤ area ∧ n ≤ 63 := by
  simp only [inArea, Bool.and_eq_true, within_iff, decide_eq_true_eq, and_assoc]
  exact Iff.rfl

theorem isIndex_iff (i : Nat) : isIndex i = true ↔ 1 ≤ i ∧ i ≤ 48 := by
  simp [isIndex, within_iff, Config.leaseCount]

theorem isStation_iff (a : Nat) : isStation a = true ↔ 1 ≤ a ∧ a ≤ 30 := by
  simp [isStation, within_iff, Config.stationCount]

theorem isPolicyId_iff (id : Nat) : isPolicyId id = true ↔ 1 ≤ id ∧ id ≤ 16 := by
  simp [isPolicyId, within_iff]

theorem isStation_of_present (t : Tables) (a : Nat) (h : t.stations.length = 30) (st : Station)
    (hs : t.station? a = some st) : isStation a = true := by
  have := station?_isSome_range _ _ _ hs
  rw [isStation_iff]; omega

/-! ### Management commands of their own length -/

theorem parse_readSlot (area : Nat) (n : Byte) :
    parseCommand area [0x01, n] = .ranged (within 1 n.toNat Config.slotCount) (.readSlot n.toNat) := rfl

theorem parse_readLease (area : Nat) (i : Byte) :
    parseCommand area [0x02, i] = .ranged (isIndex i.toNat) (.readLease i.toNat) := rfl

theorem parse_readStation (area : Nat) (a p : Byte) : parseCommand area [0x03, a, p] =
    .ranged (isStation a.toNat && p.toNat ≤ 5) (.readStation a.toNat p.toNat) := rfl

theorem parse_readQueue (area : Nat) (p : Byte) :
    parseCommand area [0x04, p] = .ranged (p.toNat ≤ 15) (.readQueue p.toNat) := rfl

theorem parse_readCounts (area : Nat) : parseCommand area [0x05] = .good .readCounts := rfl

theorem parse_readPolicy (area : Nat) (id : Byte) :
    parseCommand area [0x06, id] = .ranged (isPolicyId id.toNat) (.readPolicy id.toNat) := rfl

theorem parse_setPolicy (area : Nat) (id high low : Byte) : parseCommand area [0x07, id, high, low] =
    .ranged (isPolicyId id.toNat && policyValueOk id.toNat (wordOf high low))
      (.setPolicy id.toNat (wordOf high low)) := rfl

theorem parse_setQuota (area : Nat) (a q : Byte) : parseCommand area [0x08, a, q] =
    .ranged (isStation a.toNat && q.toNat ≤ 63) (.setQuota a.toNat q.toNat) := rfl

theorem parse_houseGrant (area : Nat) (fields : List Byte) :
    parseCommand area (0x09 :: fields) = parseHouseGrant area fields := rfl

theorem parse_pin (area : Nat) (i e on : Byte) : parseCommand area [0x0A, i, e, on] =
    .ranged (isIndex i.toNat && on.toNat ≤ 1) (.pin (handleOf i e) (on == 1)) := rfl

theorem parse_revoke (area : Nat) (i e im : Byte) : parseCommand area [0x0B, i, e, im] =
    .ranged (isIndex i.toNat && im.toNat ≤ 1) (.revoke (handleOf i e) (im == 1)) := rfl

theorem parse_bar (area : Nat) (n : Byte) :
    parseCommand area [0x0C, n] = .ranged (inArea area n.toNat) (.bar n.toNat) := rfl

theorem parse_unbar (area : Nat) (n : Byte) :
    parseCommand area [0x0D, n] = .ranged (inArea area n.toNat) (.unbar n.toNat) := rfl

theorem parse_resize (area : Nat) (n : Byte) :
    parseCommand area [0x0E, n] = .ranged (within 8 n.toNat 63) (.resize n.toNat) := rfl

theorem parse_evict (area : Nat) (a : Byte) :
    parseCommand area [0x0F, a] = .ranged (isStation a.toNat) (.evict a.toNat) := rfl

theorem parse_clearLeases (area : Nat) : parseCommand area [0x10] = .good .clearLeases := rfl

theorem parse_softReset (area : Nat) : parseCommand area [0x11] = .good .softReset := rfl

theorem ranged_true (c : Command) : Parsed.ranged true c = .good c := rfl
theorem ranged_false (c : Command) : Parsed.ranged false c = .bad .badValue := rfl

/-- A command refused at the first two steps: the row answers the refusal and no table changes. -/
theorem manage_bad (s : State) (c : List Byte) (r : CmdResult) (h : s.port.mailbox = .busy c)
    (hp : parseCommand s.te.policy.streamArea c = .bad r) : s.manage c = s.responded s.te (c.headD 0) r [] := by
  have hn : parseCommand s.te.policy.streamArea c ≠ .good .softReset := by simp [hp]
  rw [manage_busy s c h, performCommand_eq s c hn, takeCommand_bad _ _ _ _ hp]

/-- A good command other than SOFT_RESET: the row answers what the command does to the tables. -/
theorem manage_good (s : State) (c : List Byte) (x : Command) (h : s.port.mailbox = .busy c)
    (hp : parseCommand s.te.policy.streamArea c = .good x) (hx : x ≠ .softReset) :
    s.manage c = s.responded (s.te.runCommand s.trunk.sync x).tables (c.headD 0)
      (s.te.runCommand s.trunk.sync x).result (s.te.runCommand s.trunk.sync x).body := by
  have hn : parseCommand s.te.policy.streamArea c ≠ .good .softReset := by simp [hp, hx]
  rw [manage_busy s c h, performCommand_eq s c hn, takeCommand_good _ _ _ _ hp]

/-- A code that names no command is BAD_COMMAND. -/
theorem parse_unknown (area : Nat) (code : Byte) (fields : List Byte) (h : code.toNat = 0 ∨ 0x11 < code.toNat) :
    parseCommand area (code :: fields) = .bad .badCommand := by
  simp only [parseCommand]
  unfold parseFields
  split <;> first | omega | rfl

/-! ### Requests of their own length -/

theorem request_leave : parseRequest [0x02] = some .leave := rfl

theorem request_grant (count flags priority high low idle : Byte) :
    parseRequest [0x03, count, flags, priority, high, low, idle] =
      if within 1 count.toNat 8 && flags.toNat ≤ 3 && priority.toNat ≤ 3 then
        some (.grant ⟨count.toNat, flags.getLsbD 0, flags.getLsbD 1, priority.toNat, wordOf high low, idle.toNat⟩)
      else none := rfl

theorem request_renew (i e high low : Byte) :
    parseRequest [0x04, i, e, high, low] = onHandle i e (.renew · (wordOf high low)) := rfl

theorem request_release (i e : Byte) : parseRequest [0x05, i, e] = onHandle i e .release := rfl

theorem request_attach (i e : Byte) : parseRequest [0x06, i, e] = onHandle i e .attach := rfl

theorem request_detach (i e : Byte) : parseRequest [0x07, i, e] = onHandle i e .detach := rfl

theorem request_querySlot (n : Byte) : parseRequest [0x08, n] =
    if within 1 n.toNat Config.slotCount then some (.querySlot n.toNat) else none := rfl

theorem request_queryLease (i e : Byte) : parseRequest [0x09, i, e] = onHandle i e .queryLease := rfl

theorem request_listMine (n : Byte) : parseRequest [0x0A, n] =
    if isIndex n.toNat then some (.listMine n.toNat) else none := rfl

theorem request_cancel (n : Byte) : parseRequest [0x0B, n] =
    if n.toNat = 0 then none else some (.cancel n.toNat) := rfl

theorem joinTag_join (b0 b1 b2 b3 : Byte) : joinTag [0x01, b0, b1, b2, b3] = some (tagOf b0 b1 b2 b3) := by
  simp [joinTag]

/-- Only a JOIN has the tag of one. -/
theorem joinTag_notJoin (r : List Byte) (h : isJoin r = false) : joinTag r = none := by
  unfold joinTag
  split
  · rw [if_neg]; simpa [isJoin] using h
  · rfl

/-! ### Handles -/

/-- A handle that names a lease is valid. -/
theorem validLease?_names (t : Tables) (i e : Byte) (l : Lease) (h : t.names i e l) :
    t.validLease? (handleOf i e) = some l ∧ isIndex i.toNat = true := by
  obtain ⟨h1, h2, h3, h4⟩ := h
  exact ⟨by simp [Tables.validLease?, handleOf, h3, h4], by simp [isIndex, within, h1, h2]⟩

/-- A stale handle names none. -/
theorem validLease?_stale (t : Tables) (i e : Byte) (h : t.stale i e) :
    t.validLease? (handleOf i e) = none ∧ isIndex i.toNat = true := by
  obtain ⟨h1, h2, h3⟩ := h
  refine ⟨?_, by simp [isIndex, within, h1, h2]⟩
  by_cases he : e.toNat = (t.entry i.toNat).epoch.toNat
  · rcases h3 with h3 | h3
    · simp [Tables.validLease?, handleOf, h3]
    · exact absurd he.symm h3
  · simp [Tables.validLease?, handleOf, he]

/-! ### A reply in reply to its own poll -/

/-- A request other than JOIN from a present station, under a new sequence number and without acknowledgment. -/
theorem takeReply_request (t : Tables) (a : Nat) (seq : BitVec 4) (request : List Byte) (st : Station)
    (hj : isJoin request = false) (hs : t.station? a = some st) (hq : seq ≠ st.lastSeq) :
    t.takeReply ⟨a, seq, none, some request⟩ false =
      ((((t.heard a st).checkedRequest a { st with live := .joined, misses := 0 } request).1.storeResponse a seq
          (((t.heard a st).checkedRequest a { st with live := .joined, misses := 0 } request).2.body
            (requestKind request))),
        some (((t.heard a st).checkedRequest a { st with live := .joined, misses := 0 } request).2.body
          (requestKind request))) := by
  have hr := station?_isSome_range _ _ _ hs
  have hm : t.modifyStation a .alive = t.heard a st := by rw [modifyStation_some _ _ _ _ hs]; rfl
  have hh : (t.heard a st).station? a = some { st with live := .joined, misses := 0 } := by
    simp [Tables.heard, setStation_station?_self _ _ _ hr.1 hr.2]
  have hc : t.claim? a request = none := by simp [Tables.claim?, joinTag_notJoin _ hj]
  simp only [Tables.takeReply, Tables.ownReply, hc, hm, hj, Tables.requestStage, hh]
  simp [hq, Tables.acknowledge]

end Sys2Proof.Machine
end

