-- ==== Sys2Proof/Laws/Reception.lean ====
section
/-! SUPPORT. What the receiver of the request line can do in one period, and over several. -/

namespace Sys2Proof.Machine

/-- Everything one period can do between two characters (R130): a start bit at a transition from mark to space, or one period
more of silence. -/
theorem sample_quiet (was level : Bool) (since : Nat) :
    (was = true ∧ level = false ∧
      (Receiver.quiet was since).sample level = (.start (decide (lateFrom ≤ since)), none)) ∨
    (¬ (was = true ∧ level = false) ∧ (Receiver.quiet was since).sample level = (.quiet level (since + 1), none)) := by
  cases was <;> cases level <;> simp [Receiver.sample]

/-- A start bit begins a character at once: the silence counted so far only says whether it comes late (R130, R131). -/
@[simp] theorem sample_start (since : Nat) :
    (Receiver.quiet true since).sample false = (.start (decide (lateFrom ≤ since)), none) := rfl

/-- A period inside a character before the middle of its stop bit completes none (R130). -/
theorem sample_inChar (late level : Bool) (period : Nat) (data : Byte) (h : period ≠ middleOf 9) :
    (Receiver.inChar late period data).sample level =
      (.inChar late (period + 1) (if isDataMiddle period then takeDataBit data level else data), none) := by
  simp [Receiver.sample, h]

/-- The middle of the stop bit completes the character (R130). -/
@[simp] theorem sample_stopBit (late level : Bool) (data : Byte) :
    (Receiver.inChar late (middleOf 9) data).sample level = (.quiet level 0, some ⟨data, level, late⟩) := rfl

/-- Eight bits taken least significant first are the byte (R130). -/
theorem foldl_takeDataBit (b : Byte) : ((List.range 8).map b.getLsbD).foldl takeDataBit 0 = b := by
  revert b; decide +kernel

/-- Reception over two stretches of periods, one after the other. -/
theorem run_append (xs ys : List (Exchange × Bool)) (r : Reception) :
    r.run (xs ++ ys) = (((r.run xs).1.run ys).1, (r.run xs).2 ++ ((r.run xs).1.run ys).2) := by
  induction xs generalizing r with
  | nil => rfl
  | cons x xs ih => simp [Reception.run, ih, List.append_assoc]

/-- A state that listens does not send, and AWAIT_REPLY listens (R130, R134). -/
theorem listens_not_sending (s : State) (h : s.line.exchange.listens = true) : s.rlDe = false := by
  unfold State.rlDe
  cases hx : s.line.exchange <;> simp_all [Exchange.listens, Exchange.sending?]

@[simp] theorem awaits_listens (x : Exchange) (h : x.awaits = true) : x.listens = true := by
  cases x <;> simp_all [Exchange.awaits, Exchange.listens]

/-- Outside AWAIT_REPLY and RECEIVING reception brings no command and holds no frame under reception (R134). -/
theorem sample_deaf (x : Exchange) (level : Bool) (r : Reception) (h : x.listens = false) :
    (r.sample x level).2 = none ∧ ∀ chars receiver, (r.sample x level).1 ≠ .frame chars receiver := by
  have ha : x.awaits = false := by
    cases hx : x.awaits
    · rfl
    · simp [awaits_listens x hx] at h
  cases r with
  | waiting was => cases was <;> cases level <;> simp [Reception.sample, ha]
  | frame chars receiver =>
    have hs : (Reception.frame chars receiver).sample x level = (receiver.pass level, none) := by simp [Reception.sample, h]
    rw [hs]; simp only [Receiver.pass]; split <;> simp
  | passed receiver => simp only [Reception.sample, Receiver.pass]; split <;> simp

/-- A frame that is not received brings no command in any state, and reception waits again only after its silence (R131,
R134). -/
theorem sample_passed (x : Exchange) (level : Bool) (receiver : Receiver) :
    ((Reception.passed receiver).sample x level).2 = none ∧
      (((receiver.sample level).1.isSilent = true ∧ ((Reception.passed receiver).sample x level).1 = .waiting level) ∨
        ((receiver.sample level).1.isSilent = false ∧
          ((Reception.passed receiver).sample x level).1 = .passed (receiver.sample level).1)) := by
  cases h : (receiver.sample level).1.isSilent <;> simp [Reception.sample, Receiver.pass, h]

end Sys2Proof.Machine
end

