-- ==== Sys2Proof/Tests/Slice0.lean ====
section
/-! SUPPORT. Small tests: the checks of well-formedness, the manual's own examples, and for each statement with hypotheses a
concrete state that meets them, clause by clause at the ends of its ranges, with what the rules give there. -/

namespace Sys2Proof.Tests

-- One theorem after the other: the kernel's evaluations wait for each other, and each that waits would hold a thread.
set_option Elab.async false

open Sys2Proof Sys2Proof.Machine

/-! ### Helpers: small states -/

/-- A JOINED station with last sequence 3. -/
def station (tag : BitVec 32) (quota : Nat) : Station :=
  ⟨.joined, tag, quota, 0, 0, 0, 0, 3, [0x01, 0x00, 8], 0, [], false⟩

/-- A grant of an ACTIVE lease. -/
def granted (t : Tables) (i owner : Nat) (slots : List Nat) (term : Option Nat) : Tables :=
  t.createLease i (.fresh owner slots term 0 false)

/-- A pending entry of one slot. -/
def entryOf (ticket a priority wait : Nat) (anchored : Bool) : PendingEntry :=
  ⟨ticket, a, 1, false, priority, some 100, 0, wait, 0, anchored⟩

/-- Stations 1 (JOINED, tag 7) and 30 (SILENT, tag 9); leases 1 (station 1, slot 3), 2 (station 1, slots 4 and 5) and 48 (the
house, slot 46). -/
def tables : Tables :=
  let t := (Tables.powerOn.setStation 1 (some (station 7 8))).setStation 30 (some { station 9 8 with live := .silent 1 })
  granted (granted (granted t 1 1 [3] (some 1)) 2 1 [4, 5] none) 48 31 [46] (some 20)

/-- The lease of entry 2, ENDING for a reason, its notice numbered 0. -/
def ended (reason : EndReason) (deadline : Nat) : Lease :=
  { Lease.fresh 1 [4, 5] none 0 false with phase := .ending reason deadline (some 0) }

/-- Lease 2 ENDING with its notice waiting, and slots in every state: 2 marked, 6 COOLING, 7 and 47 BARRED. -/
def mixed : Tables :=
  let t := tables.setLease 2 (ended .revoked 8)
  let t := t.modifyStation 1 fun st => { st with notices := [⟨0, .ending ⟨2, 0⟩ .revoked 8⟩], nextNotice := 1 }
  let t := (t.setSlotState 2 (.free true)).setSlotState 6 (.cooling 1 2)
  (t.setSlotState 7 (.barred .manager)).setSlotState 47 (.barred .linger)

/-- Two silence expiries wait. -/
def quietExpiries : State := { State.reset with te := mixed, arbiter := ⟨[], [2, 5], none⟩ }

/-- The port is BUSY with a command. -/
def busy (c : List Byte) (t : Tables) : State := { State.reset with te := t, port := ⟨.busy c, false, 0⟩ }

/-- A reply waits, in reply to its own poll or an open poll. -/
def replying (f : ReplyFrame) (openPoll : Bool) (t : Tables) : State :=
  { State.reset with
    te := t
    arbiter := ⟨[], [], some (.reply f openPoll)⟩
    line := ⟨.waitEngine f.source, ⟨0, 0, 0, false⟩⟩ }

/-- A request of a station waits, under a sequence number and without acknowledgment. -/
def asking (a : Nat) (seq : BitVec 4) (request : List Byte) (t : Tables) : State :=
  replying ⟨a, seq, none, some request⟩ false t

/-- The trunk in a sync state. -/
def synced (y : Sync) (t : Tables) : State := { State.reset with te := t, trunk := ⟨y, true, 0⟩ }

/-- LOCKED at the last bit position of a frame of the window, with a current and a next image. -/
def lockedAt (frame : Nat) (misplaced : Bool) (t : Tables) : State :=
  { synced (.locked ⟨511, misplaced, 0⟩ ⟨frame, List.replicate 63 16, 0xFF⟩) t with
    beacon := ⟨some [1], some [2]⟩ }

/-- The trunk held and a period close next. -/
def closing (t : Tables) : State := { lockedAt 0 false t with arbiter := ⟨[List.replicate 63 .quiet], [], none⟩ }

/-- The state a command gives. -/
def after (i : Instr) (s : State) : Option State :=
  match exec i s with
  | .next t => some t
  | _ => none

/-- The response a management command is answered with. -/
def answer (i : Instr) (s : State) : Option (Byte × CmdResult × List Byte) :=
  match (after i s).map fun t : State => t.port.mailbox with
  | some (PortState.done r) => some (r.code, r.result, r.body)
  | _ => none

/-- A management command in BUSY is answered with a result and a body. -/
def answers (c : List Byte → Instr) (code : Byte) (ps : List Byte) (t : Tables) (result : CmdResult) (body : List Byte) :
    Bool := answer (c ps) (busy (code :: ps) t) == some (code, result, body)

/-- The tables a command gives. -/
def tablesAfter (i : Instr) (s : State) : Option Tables := (after i s).map State.te

/-- The line a command gives. -/
def exchangeAfter (i : Instr) (s : State) : Option Exchange := (after i s).map fun t => t.line.exchange

/-- The frame of the response a reply draws. -/
def responds (a : Nat) (seq : BitVec 4) (body : List Byte) (i : Instr) (s : State) : Bool :=
  exchangeAfter i s == some (.sendResponse (responseFrame a seq body) (10 * (body.length + 7)))

/-- The head of a reply of station 1 under sequence number 4, its last being 3. -/
def head1 : ReplyHead := ⟨1, 4, none⟩

/-! ### Well-formedness -/

/-- A management command of 25 bytes does not fit a WRITE COMMAND. -/
theorem test_wf_refuses_long_commands :
    [Instr.readSlot, .readLease, .readStation, .readQueue, .readCounts, .readPolicy, .setPolicy, .setQuota, .houseGrant,
      .pinOn, .pinOff, .revokeSoft, .revokeImmediate, .bar, .unbar, .resize, .evict, .clearLeases, .softReset].all
      (fun c => !(c (List.replicate 24 0)).wellFormed && (c (List.replicate 23 0)).wellFormed) = true := by decide

/-- A reply from address 0 or 31, or with a body of 26 bytes, cannot be presented. -/
theorem test_wf_refuses_replies :
    [Instr.join, .leave, .grant, .renew, .release, .attach, .detach, .querySlot, .queryLease, .listMine, .cancel].all
      (fun c => !(c ⟨0, 0, none⟩ []).wellFormed && !(c ⟨31, 0, none⟩ []).wellFormed &&
        !(c ⟨1, 0, some 0⟩ (List.replicate 24 0)).wellFormed && (c ⟨30, 0, some 0⟩ (List.replicate 23 0)).wellFormed) =
      true := by decide

theorem test_wf_refuses_the_rest :
    Instr.wellFormed (.idle ⟨31, 0, none⟩) = false ∧
      Instr.wellFormed (.unknownKindRequest ⟨1, 0, none⟩ [0x0B]) = false ∧
      Instr.wellFormed (.unknownKindRequest ⟨1, 0, some 1⟩ (List.replicate 25 0)) = false ∧
      Instr.wellFormed (.missReport 31) = false ∧ Instr.wellFormed (.silenceExpiry 0) = false ∧
      Instr.wellFormed (.periodClose (List.replicate 62 .quiet)) = false ∧
      Instr.wellFormed (.termExpiry 49) = false ∧ Instr.wellFormed (.endDeadlineExpiry 0) = false ∧
      Instr.wellFormed (.coolingEnd 64) = false ∧ Instr.wellFormed (.waitExpiry 256) = false ∧
      Instr.wellFormed (.frameEnd []) = false ∧
      Instr.wellFormed (.frameEnd (cleanChars (List.replicate 33 0))) = false := by decide

/-! ### Formats and the manual's examples -/

/-- The CRC of the characters 1 to 9 is 29B1h for this polynomial and start value (12.5). -/
theorem test_crc : crcBytes [0x31, 0x32, 0x33, 0x34, 0x35, 0x36, 0x37, 0x38, 0x39] = [0x29, 0xB1] := by decide +kernel

/-- The layouts of 12.1 and 12.2, by hand: a REPLY with a LEAVE and an acknowledgment, an ENDING notice. -/
theorem test_layouts :
    (ReplyFrame.bytes ⟨5, 4, some 9, some [0x02]⟩).take 7 = [0x00, 0x05, 0x04, 0x34, 0x02, 0x09, 0x02] ∧
      Notice.bytes ⟨20, .ending ⟨14, 6⟩ .expired 8⟩ = [0x04, 20, 14, 6, 0x01, 8] := by decide +kernel

/-- Example 11.3: the RENEW rescues the lease at the request stage, and the acknowledgment then removes the notice alone. -/
theorem test_rescue_in_the_same_reply :
    let l : Lease := { Lease.fresh 9 [25] (some 10) 0 false with
      term := .periods 10 0, warned := true, listeners := [4], phase := .ending .expired 8 (some 20) }
    let st : Station := { station 1 8 with lastSeq := 5, notices := [⟨20, .ending ⟨14, 0⟩ .expired 8⟩], nextNotice := 21 }
    let t := (Tables.powerOn.setStation 9 (some st)).createLease 14 l
    let i : Instr := .renew ⟨9, 6, some 20⟩ [14, 0, 0x0B, 0xB8]
    let s := replying ⟨9, 6, some 20, some [0x04, 14, 0, 0x0B, 0xB8]⟩ false t
    responds 9 6 [0x04, 0x00, 14, 0, 0x0B, 0xB8] i s = true ∧
      (tablesAfter i s).map (fun u => (u.lease? 14, (u.station? 9).map Station.notices)) =
        some (some { l with term := .periods 3000 3000, warned := false, phase := .active }, some []) := by
  decide +kernel

/-- Example 11.2, the grant that waits and the close that grants it as notice 3. -/
theorem test_request_that_waits_for_cooling_slots :
    let t := ((Tables.powerOn.setArea 8).setStation 5 (some { station 1 8 with nextNotice := 3 })).setSlotStates
      [1, 2, 3, 4, 5, 6] (.leased 1)
    let t := ((t.setSlots (List.range' 9 39) .outside).setSlotState 7 (.cooling 1 0)).setSlotState 8 (.cooling 2 0)
    let s := asking 5 4 [0x03, 2, 3, 1, 0x01, 0xF4, 10] t
    let quiet := List.replicate 63 Finding.quiet
    responds 5 4 [0x03, 0x01, 1] (.grant ⟨5, 4, none⟩ [2, 3, 1, 0x01, 0xF4, 10]) s = true ∧
      ((tablesAfter (.grant ⟨5, 4, none⟩ [2, 3, 1, 0x01, 0xF4, 10]) s).map fun u =>
        let a := u.periodClose quiet
        let b := a.periodClose quiet
        (a.queue.map fun e => (e.wait, e.passed), b.queue, (b.station? 5).map Station.notices)) =
        some ([(39, 0)], [], some [⟨3, .granted 1 ⟨1, 0⟩ [7, 8] (some 500)⟩]) := by decide +kernel

/-! ### The step, the arbiter, the handing over -/

theorem test_step_front : ({ State.reset with pending := [.poll, .tclkLost] } : State).pending = Instr.poll :: [.tclkLost] := by
  decide

/-- Each operation next in its turn, and a reply row out of its turn. -/
theorem test_arbiter_witness :
    let s := replying ⟨1, 4, none, none⟩ false tables
    let s1 : State := { s with arbiter := { s.arbiter with expiries := [30] } }
    let s2 : State := { s1 with arbiter := { s1.arbiter with closes := [[]] } }
    let s3 : State := { s2 with port := ⟨.busy [5], false, 0⟩ }
    s.nextOperation? = some (.station (.reply ⟨1, 4, none, none⟩ false)) ∧ s1.nextOperation? = some (.expiry 30) ∧
      s2.nextOperation? = some (.close []) ∧ s3.nextOperation? = some (.command [5]) ∧
      rowTakes (.idle head1) (.station (.reply ⟨1, 4, none, none⟩ false)) = true ∧
      s1.waits (.station (.reply ⟨1, 4, none, none⟩ false)) = true ∧ after (.idle head1) s1 = some s1 := by
  decide +kernel

/-- The rows before their hand-over: a command in IDLE, one against a BUSY port, a reply being received, one from a station
that was not polled, a reply in GAP, a miss in the reply window, a silence timer, a report that no window has delivered. -/
theorem test_rows_hand_over_witness :
    commandBytes (.readCounts []) = some [0x05] ∧ answer (.readCounts []) State.reset =
        some (0x05, .ok, [0, 47, 47, 47, 0, 0, 0, 0, 0]) ∧
      (after (.readCounts []) (busy [0x10] tables)).map (fun t => (t.port.mailbox, t.port.rejected)) =
        some (.busy [0x10], true) ∧
      (let s : State := { State.reset with te := tables, line := ⟨.receiving 1, ⟨0, 1, 0, false⟩⟩ };
        validReply 1 (cleanChars (ReplyFrame.bytes ⟨1, 4, none, none⟩)) = some ⟨1, 4, none, none⟩ ∧
          exchangeAfter (.idle head1) s = some (.gap 0) ∧
          (after (.idle ⟨2, 4, none⟩) s).map (fun t => t.arbiter.station) = some (some (.miss 1))) ∧
      after (.idle head1) State.reset = some State.reset ∧
      (let s : State := { State.reset with te := tables, line := ⟨.awaitReply 1 5, ⟨0, 1, 0, false⟩⟩ };
        (tablesAfter (.missReport 1) s).bind (fun t => (t.station? 1).map Station.misses) = some 1) ∧
      (tablesAfter (.silenceExpiry 30) { State.reset with te := tables }).map (fun t => t.station? 30) = some none ∧
      after (.periodClose []) (lockedAt 0 false tables) = some (lockedAt 0 false tables) := by
  decide +kernel

/-- A reply row at the ends of its ranges: station 30, every bit of sequence and acknowledgment set. -/
theorem test_reply_frames_witness :
    Instr.wellFormed (.cancel ⟨30, 15, some 255⟩ [255]) = true ∧
      validReply 30 (cleanChars (ReplyFrame.bytes ⟨30, 15, some 255, some [0x0B, 255]⟩)) =
        some ⟨30, 15, some 255, some [0x0B, 255]⟩ ∧
      validReply 0 (cleanChars (ReplyFrame.bytes ⟨1, 0, none, some []⟩)) = some ⟨1, 0, none, some []⟩ := by
  decide +kernel

/-- Each refusal of a received frame at the end of its range: a framing error, a late character (the first is none), 6 bytes,
a length byte of 26, one byte more than the length byte says, another CRC; another kind, another destination, bit 5 with no
body, bit 4 clear with a byte, another source, and after an open poll sources 0 and 31. -/
theorem test_refused_replies_witness :
    let idle := cleanChars (ReplyFrame.bytes ⟨1, 4, none, none⟩)
    let frame := fun (d s k b : Byte) (body : List Byte) => cleanChars (lineFrame d s k b body)
    validReply 1 idle = some ⟨1, 4, none, none⟩ ∧
      validReply 1 (idle.set 6 ⟨((idle[6]?).map RxChar.data).getD 0, false, false⟩) = none ∧
      validReply 1 (idle.set 1 ⟨1, true, true⟩) = none ∧ validReply 1 (idle.set 0 ⟨0, true, true⟩) = some ⟨1, 4, none, none⟩ ∧
      validReply 1 (cleanChars (withCrc [0, 1, 4, 4])) = none ∧
      validReply 1 (frame 0 1 4 0x14 (List.replicate 25 0)) = some ⟨1, 4, none, some (List.replicate 25 0)⟩ ∧
      validReply 1 (frame 0 1 4 0x14 (List.replicate 26 0)) = none ∧
      validReply 1 (cleanChars (withCrc [0, 1, 4, 4, 0, 0])) = none ∧
      validReply 1 (idle.set 3 ⟨5, true, false⟩) = none ∧
      validReply 1 (frame 0 1 3 4 []) = none ∧ validReply 1 (frame 1 1 4 4 []) = none ∧
      validReply 1 (frame 0 1 4 0x24 []) = none ∧ validReply 1 (frame 0 1 4 0x24 [7, 7]) = none ∧
      validReply 1 (frame 0 1 4 4 [7]) = none ∧ validReply 1 (frame 0 1 4 0xE4 [7]) = some ⟨1, 4, some 7, none⟩ ∧
      validReply 2 idle = none ∧ validReply 0 idle = some ⟨1, 4, none, none⟩ ∧
      validReply 0 (frame 0 0 4 4 []) = none ∧ validReply 0 (frame 0 31 4 4 []) = none := by
  decide +kernel

/-- RL_RX over a character (a gap of mark, its byte, its stop bit), 16 periods to a bit. -/
def wave (gap : Nat) (b : Byte) (stop : Bool) : List Bool :=
  List.replicate gap true ++ List.replicate 16 false ++
    (List.range 8).flatMap (fun k => List.replicate 16 (b.getLsbD k)) ++ List.replicate 16 stop

/-- Levels of RL_RX, all in one exchange state. -/
def during (x : Exchange) (levels : List Bool) : List (Exchange × Bool) := levels.map fun level => (x, level)

/-- A frame of four characters on RL_RX: the second after 1 period less than 15 µs, the third after 15 µs with a framing error,
the last after 1 period less than 30 µs; then 30 µs of silence. -/
theorem test_reception_witness :
    (Reception.waiting true).run (during (.awaitReply 1 150) (wave 999 0x55 true) ++ during (.receiving 1) (wave 239 0xA1 true ++
        wave 240 0x01 false ++ wave 479 0x80 true ++ List.replicate 480 true)) =
      (.waiting true, [.replyStart, .frameEnd [⟨0x55, true, false⟩, ⟨0xA1, true, false⟩, ⟨0x01, false, true⟩, ⟨0x80, true, true⟩]]) ∧
    ((Reception.waiting true).run (during (.awaitReply 1 150) (wave 0 0x55 true ++ List.replicate 479 true))).2 =
      [.replyStart] ∧
    (wave 0 0x55 false)[152]? = some false ∧
    (Reception.waiting true).run (during (.awaitReply 1 150) ((wave 0 0x55 false).take 153)) = (.frame [⟨0x55, false, false⟩] (.quiet false 0), [.replyStart]) := by
  decide +kernel

/-- A frame that begins in GAP brings nothing, though AWAIT_REPLY is reached in its first character; nor does one that begins
while the poll is sent, with a reply less than 30 µs after it; a reply 30 µs after it is received. A frame abandoned by a soft
reset brings nothing more. -/
theorem test_passed_frame_witness :
    let tail := during (.awaitReply 1 150)
    (Reception.waiting true).run (during (.gap 5) ((wave 9 0x55 true).take 50) ++
        tail ((wave 9 0x55 true).drop 50 ++ wave 0 0xA1 true ++ List.replicate 480 true)) = (.waiting true, []) ∧
    ((Reception.waiting true).run (during (.sendPoll 1 [1] 150 9) (wave 0 0x55 true) ++
        tail (wave 479 0xA1 true ++ List.replicate 480 true))).2 = [] ∧
    ((Reception.waiting true).run (during (.sendPoll 1 [1] 150 9) (wave 0 0x55 true) ++
        tail (wave 480 0xA1 true ++ List.replicate 480 true))).2 = [.replyStart, .frameEnd [⟨0xA1, true, false⟩]] ∧
    ((Reception.waiting true).run (tail (wave 0 0x55 true) ++ during (.gap 0) (wave 0 0xA1 true) ++
        tail (wave 0 0xA1 true ++ List.replicate 480 true))) = (.waiting true, [.replyStart]) := by
  decide +kernel

/-- The 33rd start bit ends reception, and nothing is received while a poll is sent. -/
theorem test_long_frame_witness :
    (Reception.frame (cleanChars (List.replicate 32 7)) (.quiet true 246)).run (during (.receiving 1) [false]) =
      (.passed (.inChar false 1 0), [.thirtyThirdCharacter]) ∧
    (let cs : List (Nat × Byte × Bool) := (0, 7, false) :: List.replicate 31 (1, 7, false);
      cs.length = 32 ∧ (cs ++ [(479, 0, true)]).IsChain (fun x y : Nat × Byte × Bool => x.2.2 = true ∨ 1 ≤ y.1)) ∧
    (let s := fun x : Exchange => ({ State.reset with line := ⟨x, ⟨0, 1, 0, false⟩⟩ } : State);
      ((s (.sendPoll 1 [1] 150 3)).hear (.waiting true) false).2 = none ∧
      ((s (.awaitReply 1 3)).hear (.waiting true) false).2 = some .replyStart ∧
      ((s (.receiving 1)).hear (.frame [⟨7, true, false⟩] (.quiet true 486)) true).2 = some (.frameEnd [⟨7, true, false⟩])) := by
  decide +kernel

/-! ### Management commands -/

theorem test_write_command_witness :
    (after (.writeCommand ⟨List.replicate 24 0, true⟩) State.reset).map (fun t => t.port) =
        some ⟨.busy (List.replicate 24 0), false, 0⟩ ∧
      (after (.writeCommand ⟨[], true⟩) State.reset).map (fun t => t.port) = some ⟨.idle, true, 0⟩ ∧
      (after (.writeCommand ⟨List.replicate 25 0, true⟩) State.reset).map (fun t => t.port) = some ⟨.idle, true, 0⟩ ∧
      (after (.writeCommand ⟨[0x05], true⟩) (busy [0x10] tables)).map (fun t => t.port) =
        some ⟨.busy [0x10], true, 0⟩ := by decide +kernel

theorem test_alarm_masks :
    (after (.writeAlarmEnable ⟨[0xFF, 0], true⟩) State.reset).map (fun t => t.readAlarms) = some [0, 0x7F] ∧
      (after (.clearAlarms ⟨[0x82], true⟩) { State.reset with te := { tables with alarms := 0x43 } }).map
        (fun t => t.te.alarms) = some 0x41 := by decide +kernel

/-- The status byte, what the read functions drive on SDO, and the transactions of the function codes (10.1, 12.4). -/
theorem test_port_functions :
    let bits := fun bs : List Byte => bs.flatMap fun b => (List.range 8).map fun j => b.getLsbD (7 - j)
    let s : State := { busy [0x05] { mixed with alarms := 8 } with port := ⟨.busy [0x05], true, 8⟩ }
    let d : State := { s with port := ⟨.done ⟨0x05, .ok, [7]⟩, false, 0⟩ }
    s.readStatus = [0x1D] ∧ d.readStatus = [0x0A] ∧ d.readResponse = [0x0A, 0x05, 0x00, 1, 7] ∧
      s.sdo false false 0x03 8 = .undriven ∧ s.sdo true true 0x03 8 = .undriven ∧ s.sdo true false 0x00 8 = .drives false ∧
      s.sdo true false 0x07 15 = .drives false ∧
      (List.range 8).map (fun j => s.sdo true false 0x03 (8 + j)) =
        [false, false, false, true, true, true, false, true].map Sdo.drives ∧
      d.sdo true false 0x02 47 = .drives true ∧ d.sdo true false 0x02 48 = .drives false ∧
      s.sdo true false 0x04 20 = .drives true ∧ s.sdo true false 0x01 8 = .unstated ∧
      [0x06, 0x04, 0x07].map (fun function => match spiTransaction (bits [function, 0x08]) s with
        | .next t => (t.te.alarms, t.port.enables)
        | _ => (0, 0)) = [(0, 8), (8, 8), (8, 8)] ∧
      (match spiTransaction (bits [0x06] ++ [false, false, false, false, true, false, false]) s with
        | .next t => t.te.alarms
        | _ => 0) = 8 := by decide +kernel

theorem test_read_slot_witness :
    answers .readSlot 0x01 [1] mixed .ok [1, 0, 0, 0, 0, 4] ∧
      answers .readSlot 0x01 [2] mixed .ok [1, 0, 0, 0, 0, 5] ∧
      answers .readSlot 0x01 [6] mixed .ok [4, 0, 1, 2, 0, 4] ∧
      answers .readSlot 0x01 [47] mixed .ok [5, 0, 0, 0, 2, 4] ∧
      answers .readSlot 0x01 [63] mixed .ok [0, 0, 0, 0, 0, 0] ∧
      answers .readSlot 0x01 [0] mixed .badValue [] ∧
      answers .readSlot 0x01 [64] mixed .badValue [] := by decide +kernel

theorem test_read_lease_witness :
    mixed.lease? 3 = none ∧ answers .readLease 0x02 [3] mixed .ok [0, 0] ∧
      answers .readLease 0x02 [2] mixed .ok (
        [2, 0, 1, 2, 4, 5, 0, 0, 0, 0, 0, 0, 0, 0, 0, 0, 8, 0, 0, 0, 0, 0, 0, 0, 2, 8, 0]) ∧
      answers .readLease 0x02 [48] mixed .ok (
        [1, 0, 31, 1, 46, 0, 0, 0, 0, 0, 0, 0, 0, 20, 0, 20, 4, 0, 0, 0, 0, 0, 0, 0, 0, 0, 0]) ∧
      answers .readLease 0x02 [49] mixed .badValue [] := by decide +kernel

theorem test_other_reads_witness :
    answers .readStation 0x03 [2, 0] mixed .noStation [] ∧
      answers .readStation 0x03 [1, 1] mixed .ok [0x04, 0, 2, 0, 2, 8] ∧
      answers .readStation 0x03 [30, 5] mixed .ok [3, 1, 0, 8] ∧
      answers .readQueue 0x04 [0] ({ mixed with queue := [entryOf 255 1 3 40 true] } : Tables) .ok [1, 255, 1, 1, 2, 3, 0, 100, 0, 40, 0] ∧
      answers .readQueue 0x04 [15] mixed .ok (List.replicate 11 0) ∧
      answers .readCounts 0x05 [] mixed .ok [3, 40, 39, 47, 0, 2, 0, 0, 0] ∧
      answers .readPolicy 0x06 [16] mixed .ok [16, 0, 8] ∧
      answers .readPolicy 0x06 [17] mixed .badValue [] := by decide +kernel

theorem test_set_policy_witness :
    answers .setPolicy 0x07 [15, 0, 8] mixed .badValue [] ∧
      answers .setPolicy 0x07 [1, 0, 47] mixed .notAllowed [] ∧
      [0, 17].all (fun id => answers .setPolicy 0x07 [id, 0, 8] mixed .badValue []) = true ∧
      (tablesAfter (.setPolicy [8, 0xFF, 0xFF]) (busy [0x07, 8, 0xFF, 0xFF] mixed)).map (fun t => t.policy.maxTerm) =
        some 65535 ∧
      (tablesAfter (.setPolicy [15, 0, 2]) (busy [0x07, 15, 0, 2] mixed)).map (fun t => (t.slot 6, t.alarms)) =
        some (.inArea (.barred .linger) .quiet, 2) ∧
      (tablesAfter (.setPolicy [15, 0, 7]) (busy [0x07, 15, 0, 7] mixed)).map (fun t => (t.slot 6, t.alarms)) =
        some (.inArea (.cooling 1 2) .quiet, 0) := by decide +kernel

theorem test_quota_and_evict_witness :
    answers .setQuota 0x08 [2, 5] mixed .noStation [] ∧
      answers .setQuota 0x08 [1, 64] mixed .badValue [] ∧
      (tablesAfter (.setQuota [30, 63]) (busy [0x08, 30, 63] mixed)).bind (fun t => (t.station? 30).map Station.quota) =
        some 63 ∧
      answers .evict 0x0F [31] mixed .badValue [] ∧
      answers .evict 0x0F [2] mixed .noStation [] ∧
      (tablesAfter (.evict [1]) (busy [0x0F, 1] mixed)).map (fun t => (t.station? 1, t.entry 1, t.slot 4)) =
        some (none, ⟨1, none⟩, .inArea (.cooling 4 0) .quiet) := by decide +kernel

/-- Entry 3 is the lowest free one of `mixed`. -/
theorem test_lowest_free_witness : mixed.lowestFree 3 := by unfold Tables.lowestFree; decide +kernel

theorem test_house_grant_witness :
    let full : Tables := { mixed with leases := mixed.leases.map fun e => ⟨e.epoch, some (Lease.fresh 31 [9] none 0 false)⟩ }
    answers .houseGrant 0x09 [1, 3, 0, 0, 0] mixed .slotInUse [] ∧
      answers .houseGrant 0x09 [2, 45, 2, 0xFF, 0xFF, 1] mixed .ok [3, 0, 2, 2, 45, 0, 0, 0, 0, 0, 0, 0xFF, 0xFF] ∧
      answers .houseGrant 0x09 [1, 1, 0, 0, 0] full .tableFull [] := by
  decide +kernel

theorem test_pin_and_revoke_witness :
    answers .pinOn 0x0A [1, 0, 1] mixed .ok [1, 0, 1] ∧
      answers .pinOff 0x0A [48, 0, 0] mixed .ok [48, 0, 0] ∧
      answers .pinOn 0x0A [2, 0, 1] mixed .notAllowed [] ∧
      answers .pinOn 0x0A [3, 0, 1] mixed .staleHandle [] ∧
      answers .pinOn 0x0A [49, 0, 1] mixed .badValue [] ∧
      answers .revokeSoft 0x0B [1, 0, 0] mixed .ok [1, 0, 2, 2] ∧
      answers .revokeSoft 0x0B [2, 0, 0] mixed .ok [2, 0, 2, 2] ∧
      answers .revokeSoft 0x0B [1, 1, 0] mixed .staleHandle [] ∧
      (tablesAfter (.revokeImmediate [48, 0, 1]) (busy [0x0B, 48, 0, 1] mixed)).map (fun t => t.entry 48) =
        some ⟨1, none⟩ := by decide +kernel

theorem test_bar_witness :
    answers .bar 0x0C [0] mixed .badValue [] ∧
      answers .bar 0x0C [48] mixed .badValue [] ∧
      (tablesAfter (.bar [1]) (busy [0x0C, 1] mixed)).map (fun t => t.slot 1) = some (.inArea (.barred .manager) .quiet) ∧
      (tablesAfter (.bar [6]) (busy [0x0C, 6] mixed)).map (fun t => t.slot 6) = some (.inArea (.barred .manager) .quiet) ∧
      answers .bar 0x0C [46] mixed .slotInUse [] ∧
      (tablesAfter (.bar [47]) (busy [0x0C, 47] mixed)).map (fun t => t.slot 47) =
        some (.inArea (.barred .linger) .quiet) := by decide +kernel

theorem test_unbar_witness :
    answers .unbar 0x0D [48] mixed .badValue [] ∧
      (tablesAfter (.unbar [47]) (busy [0x0D, 47] mixed)).map (fun t => t.slot 47) =
        some (.inArea (.free false) .quiet) ∧
      [1, 3, 6].all (fun n => answers .unbar 0x0D [n] mixed .notAllowed []) = true := by
  decide +kernel

theorem test_resize_witness :
    [7, 64].all (fun n => answers .resize 0x0E [n] mixed .badValue []) = true ∧
      answers .resize 0x0E [47] mixed .ok [] ∧
      answers .resize 0x0E [45] mixed .areaInUse [] ∧
      (tablesAfter (.resize [46]) (busy [0x0E, 46] mixed)).map (fun t => (t.policy.streamArea, t.slot 46, t.slot 47)) =
        some (46, .inArea (.leased 48) .quiet, .outside) ∧
      (tablesAfter (.resize [63]) (busy [0x0E, 63] mixed)).map (fun t => (t.policy.streamArea, t.slot 63)) =
        some (63, .inArea (.free false) .quiet) ∧
      (tablesAfter (.resize [8]) (busy [0x0E, 8] { Tables.powerOn with
        queue := [⟨1, 5, 9, false, 0, none, 0, 1, 0, false⟩] })).map (fun t => t.queue) = some [] := by decide +kernel

theorem test_clear_leases_witness :
    let u := tablesAfter (.clearLeases []) (busy [0x10] { mixed with queue := [entryOf 1 1 0 40 true] })
    u.map (fun t => (t.queue, t.entry 48, t.entry 3)) = some ([], ⟨1, none⟩, ⟨0, none⟩) ∧
      u.map (fun t => (t.slot 46, t.slot 47)) =
        some (.inArea (.cooling 4 0) .quiet, .inArea (.barred .linger) .quiet) ∧
      u.bind (fun t => (t.station? 1).map fun st => (st.notices, st.overflow)) = some ([⟨0, .ending ⟨2, 0⟩ .revoked 8⟩,
        ⟨1, .ended ⟨1, 0⟩ .cleared⟩, ⟨2, .ended ⟨2, 0⟩ .cleared⟩, ⟨3, .refused 1 .cleared⟩], false) := by
  decide +kernel

theorem test_soft_reset_witness :
    let u := after (.softReset [])
      { busy [0x11] { mixed with alarms := 0x7F } with line := ⟨.receiving 1, ⟨2, 1, 3, false⟩⟩ }
    u.map (fun t => (t.te.entry 2, t.te.entry 3, t.te.station? 1)) = some (⟨1, none⟩, ⟨0, none⟩, none) ∧
      u.map (fun t => (t.te.mapEpoch, t.te.alarms, t.line)) = some (1, 0, ⟨.gap 0, ⟨0, 0, 0, true⟩⟩) ∧
      answers .softReset 0x11 [0] mixed .badCommand [] := by decide +kernel

/-- A soft reset finishes the character being sent: at its start, in its last bit, of a poll and of a response; it keeps the
time already passed in GAP. -/
theorem test_soft_reset_line_witness :
    let line := fun x : Exchange => exchangeAfter (.softReset []) { busy [0x11] mixed with line := ⟨x, ⟨2, 1, 3, false⟩⟩ }
    line (.sendPoll 1 [0x12, 0x34] 150 20) = some (.finishChar 0x12 10) ∧
      line (.sendPoll 1 [0x12, 0x34] 150 11) = some (.finishChar 0x12 1) ∧
      line (.sendResponse [0x12, 0x34] 10) = some (.finishChar 0x34 10) ∧
      line (.sendResponse [0x12, 0x34] 1) = some (.finishChar 0x34 1) ∧
      line (.finishChar 0x34 1) = some (.finishChar 0x34 1) ∧
      line (.gap 7) = some (.gap 7) ∧ line (.awaitReply 1 5) = some (.gap 0) := by decide +kernel

theorem test_malformed_witness :
    answers .bar 0x0C [] mixed .badCommand [] ∧
      answers .houseGrant 0x09 [2, 8, 8, 0, 0, 0] mixed .badValue [] ∧
      answers .houseGrant 0x09 [1, 8, 0, 0, 2] mixed .badValue [] ∧
      (match step (busy [0x12] mixed) with
        | .next t => t.port.mailbox == .done ⟨0x12, .badCommand, []⟩ && t.te == mixed
        | _ => false) = true ∧
      parseCommand 47 [0x00] = .bad .badCommand ∧ parseCommand 47 [0x03, 30, 6] = .bad .badValue ∧
      parseCommand 47 [0x04, 16] = .bad .badValue ∧ parseCommand 47 [0x0A, 1, 0, 2] = .bad .badValue := by decide +kernel

/-! ### Station requests -/

theorem test_join_witness :
    responds 2 0 [0x01, 0x00, 8] (.join ⟨2, 0, none⟩ [0, 0, 0, 1]) (replying ⟨2, 0, none, some [0x01, 0, 0, 0, 1]⟩ true mixed) =
        true ∧
      responds 1 4 [0x01, 0x0F, 0, 0, 0, 7] (.join head1 [0, 0, 0, 8]) (asking 1 4 [0x01, 0, 0, 0, 8] mixed) = true ∧
      (tablesAfter (.join head1 [0, 0, 0, 7]) (asking 1 4 [0x01, 0, 0, 0, 7] mixed)).map (fun t =>
        (t.lease? 2, (t.station? 1).map fun st => (st.notices, st.overflow, st.lastSeq))) =
        some (some { ended .revoked 8 with phase := .ending .revoked 8 none }, some ([], true, 4)) ∧
      tablesAfter (.join ⟨1, 4, some 0⟩ [0, 0, 0, 8]) (replying ⟨1, 4, some 0, some [0x01, 0, 0, 0, 8]⟩ false mixed) =
        some mixed ∧
      responds 1 3 [0x01, 0x00, 8] (.join ⟨1, 3, none⟩ [0, 0, 0, 7]) (asking 1 3 [0x01, 0, 0, 0, 7] mixed) = true ∧
      exchangeAfter (.join ⟨1, 3, none⟩ [0, 0, 0, 7]) (replying ⟨1, 3, none, some [0x01, 0, 0, 0, 7]⟩ true mixed) =
        some (.gap 0) := by decide +kernel

/-- A rejoin leaves an ACTIVE lease, and another owner's ENDING lease, as they are. -/
theorem test_rejoin_keeps_witness :
    let other := { ended .idle 3 with owner := 30, slots := [46] }
    let t := mixed.setLease 48 other
    (tablesAfter (.join head1 [0, 0, 0, 7]) (asking 1 4 [0x01, 0, 0, 0, 7] t)).map (fun u => (u.lease? 1, u.lease? 48)) =
      some (t.lease? 1, some other) := by decide +kernel

theorem test_leave_witness :
    responds 1 4 [0x02, 0x00] (.leave head1 []) (asking 1 4 [0x02] mixed) = true ∧
      (tablesAfter (.leave head1 []) (asking 1 4 [0x02] mixed)).map (fun t => (t.station? 1, t.lease? 1, t.lease? 2)) =
        some (none, none, none) := by decide +kernel

/-- At once, at the quota: 3 held and 5 more of 8; one more is refused. -/
theorem test_grant_at_once_witness :
    responds 1 4 [0x03, 0x00, 3, 0, 5, 1, 8, 9, 10, 11, 0, 0, 0, 0x24, 0x9F] (.grant head1 [5, 0, 3, 0, 0, 255])
        (asking 1 4 [0x03, 5, 0, 3, 0, 0, 255] mixed) = true ∧
      responds 1 4 [0x03, 0x03] (.grant head1 [6, 0, 0, 0, 0, 0]) (asking 1 4 [0x03, 6, 0, 0, 0, 0, 0] mixed) = true := by
  decide +kernel

/-- Not at once: an anchored entry ahead, with and without the wait flag; a full queue; no lease entry; no room. -/
theorem test_grant_not_at_once_witness :
    let st := station 7 8
    let anchored : Tables := { mixed with queue := [entryOf 1 30 0 40 true] }
    let many : Tables := { mixed with queue := (List.range' 1 16).map fun k => entryOf k 30 0 40 true }
    let full : Tables := { mixed with leases := mixed.leases.map fun e => ⟨e.epoch, some (Lease.fresh 31 [9] none 0 false)⟩ }
    (anchored.grantDecision 1 st ⟨8, true, true, 0, 0, 0⟩).2 = ⟨.wait, [2]⟩ ∧
      (anchored.grantDecision 1 st ⟨1, false, false, 0, 0, 0⟩).2 = ⟨.noRoom, [39]⟩ ∧
      (many.grantDecision 1 st ⟨1, false, true, 0, 0, 0⟩).2 = ⟨.queueFull, []⟩ ∧
      (full.grantDecision 1 st ⟨1, false, false, 0, 0, 0⟩).2 = ⟨.tableFull, []⟩ ∧
      (mixed.grantDecision 1 { st with queued := 2, quota := 63 } ⟨40, false, true, 0, 0, 0⟩).2 = ⟨.queueFull, []⟩ ∧
      (mixed.grantDecision 1 { st with quota := 63 } ⟨46, false, true, 0, 0, 0⟩).2 = ⟨.noRoom, [39]⟩ := by decide +kernel

theorem test_renew_and_release_witness :
    responds 1 4 [0x04, 0x00, 1, 0, 0x24, 0x9F] (.renew head1 [1, 0, 0xFF, 0xFF]) (asking 1 4 [0x04, 1, 0, 0xFF, 0xFF] mixed) =
        true ∧
      responds 1 4 [0x04, 0x08] (.renew head1 [2, 0, 0, 1]) (asking 1 4 [0x04, 2, 0, 0, 1] mixed) = true ∧
      responds 1 4 [0x04, 0x07] (.renew head1 [48, 0, 0, 1]) (asking 1 4 [0x04, 48, 0, 0, 1] mixed) = true ∧
      responds 1 4 [0x04, 0x06] (.renew head1 [1, 15, 0, 1]) (asking 1 4 [0x04, 1, 15, 0, 1] mixed) = true ∧
      responds 1 4 [0x05, 0x00] (.release head1 [2, 0]) (asking 1 4 [0x05, 2, 0] mixed) = true ∧
      responds 1 4 [0x05, 0x07] (.release head1 [48, 0]) (asking 1 4 [0x05, 48, 0] mixed) = true ∧
      responds 1 4 [0x05, 0x06] (.release head1 [3, 0]) (asking 1 4 [0x05, 3, 0] mixed) = true := by decide +kernel

theorem test_attach_and_detach_witness :
    let with4 := mixed.setLease 48 { Lease.fresh 31 [46] (some 20) 0 false with listeners := [2, 3, 4, 5] }
    let with2 := mixed.setLease 48 { Lease.fresh 31 [46] (some 20) 0 false with listeners := [2, 1, 3] }
    let ending30 := mixed.setLease 2 { ended .idle 1 with owner := 30 }
    responds 1 4 [0x06, 0x0A] (.attach head1 [1, 0]) (asking 1 4 [0x06, 1, 0] mixed) = true ∧
      responds 1 4 [0x06, 0x08] (.attach head1 [2, 0]) (asking 1 4 [0x06, 2, 0] ending30) = true ∧
      responds 1 4 [0x06, 0x09] (.attach head1 [48, 0]) (asking 1 4 [0x06, 48, 0] with4) = true ∧
      responds 1 4 [0x06, 0x00, 48, 0, 1] (.attach head1 [48, 0]) (asking 1 4 [0x06, 48, 0] mixed) = true ∧
      responds 1 4 [0x07, 0x0B] (.detach head1 [1, 0]) (asking 1 4 [0x07, 1, 0] mixed) = true ∧
      responds 1 4 [0x07, 0x06] (.detach head1 [3, 0]) (asking 1 4 [0x07, 3, 0] mixed) = true ∧
      (tablesAfter (.detach head1 [48, 0]) (asking 1 4 [0x07, 48, 0] with2)).bind
        (fun t => (t.lease? 48).map Lease.listeners) = some [2, 3] := by decide +kernel

theorem test_queries_witness :
    [(1, [47, 1, 0, 0, 0]), (2, [47, 9, 0, 0, 0]), (3, [47, 2, 1, 0, 1]), (4, [47, 3, 2, 0, 1]), (6, [47, 4, 0, 0, 0]),
      (7, [47, 0x15, 0, 0, 0]), (47, [47, 0x25, 0, 0, 0]), (63, [47, 0, 0, 0, 0])].all
      (fun (p : Byte × List Byte) => responds 1 4 ([0x08, 0x00] ++ p.2) (.querySlot head1 [p.1])
        (asking 1 4 [0x08, p.1] mixed)) = true ∧
      responds 1 4 [0x09, 0x00, 0x22, 1, 2, 4, 5, 0, 0, 0, 0, 0, 0, 0, 0, 0, 2] (.queryLease head1 [2, 0])
        (asking 1 4 [0x09, 2, 0] mixed) = true ∧
      responds 1 4 [0x09, 0x06] (.queryLease head1 [2, 1]) (asking 1 4 [0x09, 2, 1] mixed) = true := by decide +kernel

theorem test_list_mine_witness :
    let t : Tables := { mixed with queue := [entryOf 9 1 1 40 false, entryOf 8 30 0 40 false, entryOf 7 1 0 40 false] }
    responds 1 4 [0x0A, 0x00, 1, 2, 0, 0, 0, 0, 0, 0, 0, 0, 0, 0, 0, 0, 2, 9, 7, 3, 8] (.listMine head1 [2])
        (asking 1 4 [0x0A, 2] t) = true ∧
      (tablesAfter (.listMine head1 [48]) (asking 1 4 [0x0A, 48] (t.modifyStation 1 fun st =>
        { st with overflow := true }))).bind (fun u => (u.station? 1).map Station.overflow) = some false := by decide +kernel

theorem test_cancel_witness :
    let t : Tables := { mixed with queue := [entryOf 255 1 1 40 true, entryOf 8 30 0 40 false] }
    responds 1 4 [0x0B, 0x00, 255] (.cancel head1 [255]) (asking 1 4 [0x0B, 255] t) = true ∧
      (tablesAfter (.cancel head1 [255]) (asking 1 4 [0x0B, 255] t)).map (fun u => (u.queue, u.slot 1)) =
        some ([], .inArea (.leased 3) .quiet) ∧
      responds 1 4 [0x0B, 0x0C] (.cancel head1 [8]) (asking 1 4 [0x0B, 8] t) = true := by decide +kernel

theorem test_idle_witness :
    (after (.idle head1) (replying ⟨1, 4, none, none⟩ true mixed)).map (fun t => (t.te == mixed, t.line.exchange)) =
        some (true, .gap 0) ∧
      (tablesAfter (.idle ⟨30, 4, none⟩) (replying ⟨30, 4, none, none⟩ false mixed)).bind
        (fun t => (t.station? 30).map Station.live) = some .joined ∧
      (tablesAfter (.idle ⟨2, 4, some 0⟩) (replying ⟨2, 4, some 0, none⟩ false mixed)).map (fun t => t == mixed) =
        some true := by decide +kernel

theorem test_refused_requests_witness :
    responds 1 4 [0x0C, 0x0D] (.unknownKindRequest head1 [0x0C]) (asking 1 4 [0x0C] mixed) = true ∧
      responds 1 4 [0x00, 0x0D] (.unknownKindRequest head1 []) (asking 1 4 [] mixed) = true ∧
      responds 1 4 [0x03, 0x0D] (.grant head1 [9, 0, 0, 0, 0, 0]) (asking 1 4 [0x03, 9, 0, 0, 0, 0, 0] mixed) = true ∧
      responds 1 4 [0x02, 0x0D] (.leave head1 [0]) (asking 1 4 [0x02, 0] mixed) = true ∧
      responds 1 4 [0x01, 0x0D] (.join head1 [7]) (asking 1 4 [0x01, 7] mixed) = true ∧
      responds 2 4 [0x0A, 0x0E] (.listMine ⟨2, 4, none⟩ [1]) (asking 2 4 [0x0A, 1] mixed) = true ∧
      responds 2 4 [0x01, 0x0D] (.join ⟨2, 4, none⟩ []) (asking 2 4 [0x01] mixed) = true ∧
      responds 1 3 [0x01, 0x0D] (.join ⟨1, 3, none⟩ [7]) (asking 1 3 [0x01, 7] mixed) = true ∧
      ((tablesAfter (.join ⟨1, 3, none⟩ [7]) (asking 1 3 [0x01, 7] mixed)).bind (fun t => t.station? 1)).map
        Station.lastResponse = some [0x01, 0x0D] ∧
      responds 1 3 [0x01, 0x00, 8] (.listMine ⟨1, 3, none⟩ [0]) (asking 1 3 [0x0A, 0] mixed) = true ∧
      exchangeAfter (.listMine head1 [1]) (replying ⟨1, 4, none, some [0x0A, 1]⟩ true mixed) = some (.gap 0) := by
  decide +kernel

theorem test_acknowledgment_witness :
    (mixed.acknowledge 1 (some 0)).lease? 2 = none ∧ mixed.acknowledge 1 (some 1) = mixed ∧
      mixed.acknowledge 2 (some 0) = mixed ∧ mixed.acknowledge 30 (some 0) = mixed ∧
      (let t := mixed.setLease 2 { ended .revoked 8 with phase := .ending .revoked 8 (some 1) };
        (t.acknowledge 1 (some 0)).lease? 2 = t.lease? 2 ∧
          ((t.acknowledge 1 (some 0)).station? 1).map Station.notices = some []) := by decide +kernel

/-! ### The other operations -/

theorem test_miss_witness :
    let s := fun (a : Nat) (t : Tables) => ({ State.reset with te := t, arbiter := ⟨[], [], some (.miss a)⟩ } : State)
    let live := fun (a : Nat) (t : Tables) => (tablesAfter (.missReport a) (s a t)).bind
      (fun u => (u.station? a).map fun st => (st.live, st.misses))
    let with2 := mixed.setStation 1 (some { station 7 8 with misses := 2 })
    let with15 := mixed.setStation 30 (some { station 9 8 with live := .silent 1, misses := 15 })
    live 1 mixed = some (.joined, 1) ∧ live 1 with2 = some (.silent 3000, 3) ∧ live 30 with15 = some (.silent 1, 15) ∧
      tablesAfter (.missReport 2) (s 2 mixed) = some mixed := by decide +kernel

/-- The removal of station 1 with its lease 1 pinned: the house takes it, lease 2 is retired. -/
theorem test_removal_witness :
    let pinned := mixed.setLease 1 { Lease.fresh 1 [3] (some 1) 0 true with listeners := [30] }
    let s := fun (a : Nat) (t : Tables) => ({ State.reset with te := t, arbiter := ⟨[], [a], none⟩ } : State)
    (pinned.removeStation 1 .ownerLeft).entry 1 =
        ⟨0, some { Lease.fresh 1 [3] (some 1) 0 true with owner := 31, listeners := [30] }⟩ ∧
      (pinned.removeStation 1 .ownerLeft).entry 2 = ⟨1, none⟩ ∧
      (tablesAfter (.silenceExpiry 30) (s 30 pinned)).map (fun t => (t.station? 30, (t.lease? 1).map Lease.listeners, t.alarms)) =
        some (none, some [], 8) ∧
      tablesAfter (.silenceExpiry 1) (s 1 mixed) = some mixed ∧ tablesAfter (.silenceExpiry 2) (s 2 mixed) = some mixed := by
  decide +kernel

/-- The removal of station 1 with lease 2 ENDING and listened to by station 30, and an anchored entry: its slots cool, station
30 is told ENDED with the reason, and the queue pass grants station 30 its entry. -/
theorem test_removal_stages_witness :
    let heard := mixed.setLease 2 { ended .revoked 8 with listeners := [30] }
    let u := ({ heard with queue := [entryOf 1 1 3 5 true, entryOf 2 30 2 5 false] } : Tables).removeStation 1 .ownerLeft
    u.slot 4 = .inArea (.cooling 4 0) .quiet ∧ u.slot 5 = .inArea (.cooling 4 0) .quiet ∧ u.queue = [] ∧
      (u.station? 30).map Station.notices =
        some [⟨0, .ended ⟨2, 0⟩ .ownerLeft⟩, ⟨1, .granted 2 ⟨1, 1⟩ [1] (some 100)⟩] := by
  decide +kernel

/-- A close while the trunk is held and one while it is not: the snapshot becomes the next image or is discarded. -/
theorem test_close_witness :
    let report := List.replicate 63 Finding.quiet
    let s : State := { lockedAt 0 false mixed with arbiter := ⟨[report], [], none⟩ }
    let out : State := { synced .unlocked mixed with arbiter := ⟨[report], [], none⟩ }
    s.nextOperation? = some (.close report) ∧
      (after (.periodClose report) s).map (fun t => (t.te.mapEpoch, t.beacon.next == some t.te.snapshotBytes,
        t.te.snapshotBytes.length, t.arbiter.closes)) = some (1, true, 132, []) ∧
      (after (.periodClose report) out).map (fun t => t.beacon) = some ⟨none, none⟩ := by decide +kernel

/-- The entries of the snapshot: FREE with and without a mark, LEASED ACTIVE and ENDING, COOLING, BARRED, OUTSIDE. -/
theorem test_beacon_entries :
    let image := mixed.settleEpoch.snapshotBytes
    let entry := fun n : Nat => (image.drop (2 * n + 2)).take 2
    image.take 4 = [0xA5, 0, 1, 47] ∧ [1, 2, 3, 4, 6, 7, 46, 63].map entry =
      [[1, 0], [1, 0x80], [0x81, 1], [0xC2, 1], [4, 0], [5, 0], [0xB0, 31], [0, 0]] := by decide +kernel

/-- Idle evaluation: an active slot, a quiet lease up to the limit and at it, the count at its end, ENDING, pinned. -/
theorem test_idle_witness_of_the_close :
    let lease := fun (limit count : Nat) (pinned : Bool) => mixed.setLease 1 { Lease.fresh 1 [3] none limit pinned with
      idleCount := count }
    let idle := fun t : Tables => ((t.idleLease 1).lease? 1).map fun l => (l.idleCount, l.phase)
    idle ((lease 5 4 false).setSlot 3 (.inArea (.leased 1) .active)) = some (0, .active) ∧
      idle (lease 5 3 false) = some (4, .active) ∧ idle (lease 5 4 false) = some (5, .ending .idle 8 (some 1)) ∧
      idle (lease 0 255 false) = some (255, .active) ∧ idle (lease 5 4 true) = some (4, .active) ∧
      mixed.idleLease 2 = mixed ∧ mixed.idleLease 3 = mixed := by decide +kernel

theorem test_audit_witness :
    let active := mixed.audit (List.replicate 63 .active)
    let quiet := mixed.audit (List.replicate 63 .quiet)
    active.slot 1 = .inArea (.free true) .active ∧ active.slot 3 = .inArea (.leased 1) .active ∧
      active.slot 6 = .inArea (.barred .linger) .active ∧ active.slot 47 = .inArea (.barred .linger) .active ∧
      active.slot 48 = .outside ∧ active.alarms = 3 ∧ quiet.slot 2 = .inArea (.free false) .quiet ∧
      quiet.slot 6 = .inArea (.cooling 1 2) .quiet ∧ quiet.alarms = 0 ∧
      ((mixed.setSlotState 6 (.cooling 1 1)).audit (List.replicate 63 .active)).slot 6 =
        .inArea (.cooling 4 2) .active := by decide +kernel

/-- Stage 3 on one lease: the last period, the warning at WARN_PERIODS and not above it, a warned one, ENDING, absent. -/
theorem test_term_stage :
    let of := fun (r : Nat) (w : Bool) => (mixed.setLease 1 { Lease.fresh 1 [3] (some 99) 0 false with
      term := .periods 99 r, warned := w }).termLease 1
    ((of 1 false).lease? 1).map Lease.phase = some (.ending .expired 8 (some 1)) ∧
      ((of 17 false).lease? 1).map (fun l => (l.term, l.warned)) = some (.periods 99 16, true) ∧
      ((of 17 true).station? 1).map (fun st => st.notices.length) = some 1 ∧
      ((of 18 false).lease? 1).map (fun l => (l.term, l.warned)) = some (.periods 99 17, false) ∧
      mixed.termLease 2 = mixed ∧ mixed.termLease 3 = mixed ∧ mixed.deadlineLease 1 = mixed := by decide +kernel

/-- A close is next in which everything runs out: the term of lease 1, the deadline of lease 2, the cooling of slot 6, the wait
of ticket 4. Each row is that close; in the next state no close waits, and the rows given again count nothing more. -/
theorem test_events_of_a_close_witness :
    let t := { mixed.setLease 2 (ended .idle 1) with queue := [entryOf 4 1 0 1 false, entryOf 5 30 0 2 false] }
    let s := closing t
    let rows := [Instr.termExpiry 1, .endDeadlineExpiry 2, .coolingEnd 6, .waitExpiry 4]
    (rows.all fun i => after i s == after (.periodClose (List.replicate 63 .quiet)) s) = true ∧
      (tablesAfter (.termExpiry 1) s).map (fun u => (u.lease? 1).map Lease.phase) =
        some (some (.ending .expired 8 (some 1))) ∧
      (tablesAfter (.termExpiry 1) s).map (fun u => (u.entry 2, u.slot 4, u.slot 6)) =
        some (⟨1, some (Lease.fresh 30 [1] (some 100) 0 false)⟩, .inArea (.cooling 4 0) .quiet, .inArea (.free false) .quiet) ∧
      (tablesAfter (.termExpiry 1) s).map (fun u => u.queue) = some [] ∧
      ((after (.coolingEnd 6) s).map fun u => rows.all fun i => after i u == some u) = some true := by decide +kernel

/-- What does not run out in the close, or no close next: nothing changes. -/
theorem test_no_event_witness :
    let quiet := fun (i : Instr) (t : Tables) => after i (closing t) == some (closing t)
    let waiting := { mixed with queue := [entryOf 5 30 0 2 false] }
    let found : State := { closing mixed with arbiter := ⟨[List.replicate 63 .active], [], none⟩ }
    let held : State := { closing mixed with port := ⟨.busy [5], false, 0⟩ }
    [1, 7].all (fun n => quiet (.coolingEnd n) mixed) = true ∧ quiet (.coolingEnd 6) (mixed.setSlotState 6 (.cooling 2 0)) ∧
      [2, 3, 48].all (fun i => quiet (.termExpiry i) mixed) = true ∧
      [1, 2, 3].all (fun i => quiet (.endDeadlineExpiry i) mixed) = true ∧
      [5, 6].all (fun k => quiet (.waitExpiry k) waiting) = true ∧ after (.coolingEnd 6) found = some found ∧
      after (.termExpiry 1) held = some held ∧
      after (.termExpiry 1) (lockedAt 0 false mixed) = some (lockedAt 0 false mixed) := by decide +kernel

/-! ### The trunk and the beacon -/

/-- The sync state a frame start gives. -/
def syncAfter (i : Instr) (s : State) : Option Sync := (after i s).map fun t => t.trunk.sync

theorem test_frame_start_witness :
    let w : Window := ⟨1022, List.replicate 63 16, 0xFF⟩
    let next : Window := ⟨1023, List.replicate 63 16, 0xFF⟩
    syncAfter (.frameStart true) (synced (.confirming ⟨511, false, 0⟩ 2) mixed) = some (.confirming ⟨0, false, 0⟩ 3) ∧
      syncAfter (.frameStart true) (synced (.confirming ⟨511, false, 0⟩ 3) mixed) =
        some (.locked ⟨0, false, 0⟩ ⟨0, List.replicate 63 0, 0xFF⟩) ∧
      syncAfter (.frameStart true) (synced (.confirming ⟨511, true, 0⟩ 3) mixed) = some .unlocked ∧
      syncAfter (.frameStart true) (synced (.locked ⟨511, false, 0⟩ w) mixed) = some (.locked ⟨0, false, 0⟩ next) ∧
      syncAfter (.frameStart false) (synced (.locked ⟨511, false, 0⟩ w) mixed) = some (.slipping ⟨0, false, 0⟩ next 1) ∧
      syncAfter (.frameStart true) (synced (.slipping ⟨511, false, 0⟩ w 2) mixed) = some (.locked ⟨0, false, 0⟩ next) ∧
      syncAfter (.frameStart true) (synced (.slipping ⟨511, true, 0⟩ w 1) mixed) =
        some (.slipping ⟨0, false, 0⟩ next 2) ∧
      (after (.frameStart false) (synced (.slipping ⟨511, false, 0⟩ w 2) mixed)).map
        (fun t => (t.trunk.sync, t.te.alarms)) = some (.unlocked, 4) ∧
      syncAfter (.frameStart true) (synced .unlocked mixed) = some .unlocked := by decide +kernel

theorem test_window_complete_witness :
    (after (.windowComplete true) (lockedAt 1023 false mixed)).map
        (fun t => (t.arbiter.closes, t.beacon, t.trunk.sync)) =
        some ([List.replicate 63 .active], ⟨some [2], none⟩,
          .locked ⟨0, false, 0⟩ ⟨0, List.replicate 63 0, 0xFF⟩) ∧
      (syncAfter (.windowComplete true) (lockedAt 1023 true mixed)) =
        some (.slipping ⟨0, false, 0⟩ ⟨0, List.replicate 63 0, 0xFF⟩ 1) ∧
      (after (.windowComplete false) (synced (.slipping ⟨511, false, 0⟩ ⟨1023, List.replicate 63 15, 0xFF⟩ 2) mixed)).map
        (fun t => (t.arbiter.closes, t.te.alarms, t.trunk.sync)) =
        some ([List.replicate 63 .quiet], 4, .unlocked) ∧
      (syncAfter (.windowComplete false) (synced (.slipping ⟨511, false, 0⟩ ⟨1023, List.replicate 63 0, 0xFF⟩ 1) mixed)) =
        some (.slipping ⟨0, false, 0⟩ ⟨0, List.replicate 63 0, 0xFF⟩ 2) ∧
      after (.windowComplete true) (lockedAt 1022 false mixed) = some (lockedAt 1022 false mixed) := by decide +kernel

theorem test_tclk_lost_witness :
    (after .tclkLost (lockedAt 5 false mixed)).map (fun t => (t.trunk, t.te.alarms, t.beacon)) =
        some (⟨.unlocked, true, 1000⟩, 4, ⟨none, none⟩) ∧
      (after .tclkLost (synced (.confirming ⟨3, false, 0⟩ 1) mixed)).map (fun t => (t.trunk, t.te.alarms)) =
        some (⟨.unlocked, true, 1000⟩, 0) := by decide +kernel

/-- The last bit of slot 63 is taken at the period before the frame start; the byte is counted when it differs from the
IDLE_CODE. -/
theorem test_tclk_period_witness :
    let w : Window := ⟨7, List.replicate 63 0, 0xFF⟩
    syncAfter (.tclkPeriod true false) (synced .unlocked mixed) = some (.confirming ⟨0, false, 0⟩ 0) ∧
      syncAfter (.tfsRecognised false) { synced .unlocked mixed with trunk := ⟨.unlocked, false, 0⟩ } =
        some (.confirming ⟨0, false, 0⟩ 0) ∧
      syncAfter (.tclkPeriod true false) (synced (.locked ⟨510, false, 0x7F⟩ w) mixed) =
        some (.locked ⟨511, true, 0xFE⟩ { w with counts := List.replicate 62 0 ++ [1] }) ∧
      syncAfter (.tclkPeriod false true) (synced (.locked ⟨510, false, 0x7F⟩ w) mixed) =
        some (.locked ⟨511, false, 0xFF⟩ w) ∧
      syncAfter (.tclkPeriod false true) (synced (.locked ⟨6, false, 0⟩ w) mixed) = some (.locked ⟨7, false, 1⟩ w) ∧
      after (.tclkPeriod true true) (lockedAt 1023 false mixed) = after (.frameStart true) (lockedAt 1023 false mixed) ∧
      (after (.tclkPeriod true true) { synced (.locked ⟨511, false, 0⟩ w) mixed with
          trunk := ⟨.locked ⟨511, false, 0⟩ w, false, 0⟩ }).map (fun t => t.trunk) =
        some ⟨.slipping ⟨0, false, 0⟩ { w with frame := 8 } 1, false, 0⟩ := by
  decide +kernel

theorem test_beacon_witness :
    let s := fun (bitPos frame : Nat) => ({ synced (.locked ⟨bitPos, false, 0⟩ ⟨frame, [], 0x0F⟩) mixed with
      beacon := ⟨some (0xA5 :: List.replicate 131 0x80), none⟩ } : State)
    (s 0 0).bcnOut = some true ∧ (s 7 0).bcnOut = some true ∧ (s 0 131).bcnOut = some true ∧ (s 0 132).bcnOut = some false ∧
      (s 7 1023).bcnOut = some true ∧ (s 8 0).bcnOe = false := by decide +kernel

/-! ### The request line -/

theorem test_poll_witness :
    let s := fun c : Schedule => ({ State.reset with te := mixed, line := ⟨.gap 20, c⟩ } : State)
    let turn := fun c : Schedule => (after .poll (s c)).map fun t => (match t.line.exchange with
      | .sendPoll a _ window left => (a, window, left)
      | _ => (99, 0, 0), t.line.schedule)
    turn ⟨0, 0, 0, true⟩ = some ((0, 150, 70), ⟨0, 0, 0, false⟩) ∧
      turn ⟨1, 0, 0, false⟩ = some ((1, 150, 130), ⟨1, 1, 0, false⟩) ∧
      turn ⟨0, 1, 0, false⟩ = some ((30, 150, 70), ⟨0, 30, 0, false⟩) ∧
      turn ⟨1, 1, 0, false⟩ = some ((0, 150, 70), ⟨2, 0, 0, false⟩) ∧
      (let many := { mixed with policy := { mixed.policy with joinEvery := 2 } };
        (after .poll { s ⟨3, 1, 0, false⟩ with te := many }).map (fun t => t.line.schedule) =
          some ⟨0, 1, 1, false⟩) := by decide +kernel

/-- RL_TX over the character 34h: start bit, the data bits 0 0 1 0 1 1 0 0, stop bit; mark at rest. -/
theorem test_line_levels :
    let s := fun x : Exchange => ({ State.reset with line := ⟨x, .restart⟩ } : State)
    let bits := [false, false, false, true, false, true, true, false, false, true]
    (List.range 10).map (fun j => (s (.sendPoll 0 [0xFF, 0x34] 150 (10 - j))).rlTx) = bits ∧
      (List.range 10).map (fun j => (s (.sendResponse [0x34, 0xFF] (20 - j))).rlTx) = bits ∧
      (List.range 10).map (fun j => (s (.finishChar 0x34 (10 - j))).rlTx) = bits ∧
      (s (.awaitReply 0 9)).rlTx = true ∧ (s (.finishChar 0x34 1)).rlDe = true ∧ (s (.receiving 0)).rlDe = false := by
  decide +kernel

/-- A microsecond of the block's own time, at the ends of each count. -/
theorem test_own_microsecond :
    let own := fun s : State => match step s with
      | .next t => some t
      | _ => none
    let at_ := fun x : Exchange => ({ State.reset with te := mixed, line := ⟨x, ⟨0, 1, 0, false⟩⟩ } : State)
    let line := fun x : Exchange => (own (at_ x)).map fun t => t.line.exchange
    let watch := fun n : Nat => (own { lockedAt 3 false mixed with trunk := ⟨(lockedAt 3 false mixed).trunk.sync, true, n⟩ }).map
      fun t => (t.trunk.sync.alignment?.isSome, t.trunk.tclkWatch)
    let timers := fun n : Nat => (own { at_ (.receiving 1) with usPhase := n }).map fun t => (t.usPhase, t.arbiter.expiries)
    (at_ (.gap 0)).nextOperation? = none ∧ line (.gap 18) = some (.gap 19) ∧
      line (.gap 19) = exchangeAfter .poll (at_ (.gap 20)) ∧ line (.sendPoll 1 [1] 150 2) = some (.sendPoll 1 [1] 150 1) ∧
      line (.sendPoll 1 [1] 150 1) = some (.awaitReply 1 150) ∧ line (.awaitReply 1 2) = some (.awaitReply 1 1) ∧
      line (.awaitReply 1 1) = some (.gap 0) ∧ line (.receiving 1) = some (.receiving 1) ∧
      line (.sendResponse [1] 1) = some (.gap 0) ∧ line (.finishChar 1 2) = some (.finishChar 1 1) ∧
      line (.finishChar 1 1) = some (.gap 0) ∧ watch 998 = some (true, 999) ∧ watch 999 = some (false, 1000) ∧
      watch 1000 = some (true, 1000) ∧ timers 998 = some (999, []) ∧ timers 999 = some (0, [30]) := by decide +kernel

theorem test_exchange_witness :
    let s := fun x : Exchange => ({ State.reset with te := mixed, line := ⟨x, ⟨0, 1, 0, false⟩⟩ } : State)
    exchangeAfter .pollSent (s (.sendPoll 1 [] 150 3)) = some (.awaitReply 1 150) ∧
      exchangeAfter .replyStart (s (.awaitReply 0 9)) = some (.receiving 0) ∧
      (after .replyWindowExpiry (s (.awaitReply 30 9))).map (fun t => (t.line.exchange, t.arbiter.station)) =
        some (.gap 0, some (.miss 30)) ∧
      (after .replyWindowExpiry (s (.awaitReply 0 9))).map (fun t => (t.line.exchange, t.arbiter.station)) =
        some (.gap 0, none) ∧
      (after .thirtyThirdCharacter (s (.receiving 1))).map (fun t => t.arbiter.station) = some (some (.miss 1)) ∧
      (after (.frameEnd (cleanChars (ReplyFrame.bytes ⟨1, 4, none, none⟩))) (s (.receiving 1))).map
        (fun t => (t.line.exchange, t.arbiter.station)) =
        some (.waitEngine 1, some (.reply ⟨1, 4, none, none⟩ false)) ∧
      (after (.frameEnd [⟨0, true, false⟩]) (s (.receiving 1))).map (fun t => t.arbiter.station) = some (some (.miss 1)) ∧
      exchangeAfter .responseSent (s (.sendResponse [] 1)) = some (.gap 0) ∧
      [Instr.poll, .pollSent, .replyStart, .replyWindowExpiry, .frameEnd [], .thirtyThirdCharacter, .responseSent].all
        (fun i => after i (s (.waitEngine 1)) == some (s (.waitEngine 1))) = true := by decide +kernel

/-! ### What several operations share -/

theorem test_posting_witness :
    let full := mixed.setStation 30 (some { station 9 8 with
      notices := (List.replicate 4 ⟨0, .refused 1 .quota⟩), nextNotice := 255 })
    let some3 := mixed.setStation 30 (some { station 9 8 with
      notices := (List.replicate 3 ⟨0, .refused 1 .quota⟩), nextNotice := 255 })
    ((some3.post 30 (.refused 2 .timeout)).station? 30).map (fun st => (st.notices.length, st.nextNotice)) = some (4, 0) ∧
      ((full.post 30 (.refused 2 .timeout)).station? 30).map (fun st => (st.notices.length, st.nextNotice, st.overflow)) =
        some (4, 255, true) ∧
      (full.post 30 (.refused 2 .timeout)).alarms = 64 ∧ mixed.post 31 (.refused 2 .timeout) = mixed := by decide +kernel

theorem test_grant_and_retirement_witness :
    let l := Lease.fresh 1 [1, 45] (some 5) 0 false
    let u := mixed.createLease 3 l
    let v := u.retire 3 { l with listeners := [30] } .revoked true
    u.entry 3 = ⟨0, some l⟩ ∧ u.slot 45 = .inArea (.leased 3) .quiet ∧ (u.station? 1).map Station.held = some 5 ∧
      v.entry 3 = ⟨1, none⟩ ∧ v.slot 45 = .inArea (.cooling 4 0) .quiet ∧
      (v.station? 30).map Station.notices = some [⟨0, .ended ⟨3, 0⟩ .revoked⟩] ∧
      (v.station? 1).map (fun st => (st.held, st.notices.length)) = some (3, 2) := by decide +kernel

theorem test_entering_ending_witness :
    let l := Lease.fresh 1 [3] (some 1) 0 false
    let full := mixed.setStation 1 (some { station 7 8 with notices := List.replicate 4 ⟨0, .refused 1 .quota⟩ })
    ((mixed.enterEnding 1 l .idle).lease? 1).map Lease.phase = some (.ending .idle 8 (some 1)) ∧
      ((full.enterEnding 1 l .idle).lease? 1).map Lease.phase = some (.ending .idle 8 none) ∧
      ((mixed.enterEnding 48 { l with owner := 31 } .expired).lease? 48).map Lease.phase =
        some (.ending .expired 8 none) := by decide +kernel

theorem test_choice_witness :
    mixed.choice 3 false = some [1, 8, 9] ∧ mixed.choice 2 true = some [8, 9] ∧ mixed.choice 38 true = some (List.range' 8 38) ∧
      mixed.choice 39 true = none ∧ mixed.choice 40 false = none := by decide +kernel

/-- 45 usable slots, the longest run of them 39 slots from 8 to 46. -/
theorem test_possible_witness :
    mixed.possible 45 false = true ∧ mixed.possible 46 false = false ∧ mixed.possible 39 true = true ∧
      mixed.possible 40 true = false := by decide +kernel

/-- A pass: an entry that stays is passed over and anchored at ANCHOR_PASSES, one behind it is granted, one stays; an anchored
entry that stays stops the walk. -/
theorem test_queue_pass_witness :
    let t : Tables := { mixed with queue := [
      { entryOf 1 30 0 9 false with count := 8, contiguous := true, passed := 7 }, entryOf 2 1 0 9 false,
      { entryOf 3 30 0 9 false with count := 8, contiguous := true, passed := 7 }] }
    let t := t.setSlots (List.range' 9 37) (.inArea (.leased 48) .quiet)
    let stopped : Tables := { t with queue := t.queue.map fun e => { e with anchored := true } }
    t.queuePass.queue.map (fun e => (e.ticket, e.passed, e.anchored)) = [(1, 8, true), (3, 7, false)] ∧
      stopped.queuePass.queue = stopped.queue ∧ (passWalk stopped.queue stopped).2.map Prod.snd = [.stayed, .unvisited, .unvisited]
      := by decide +kernel

/-- The expiries that wait keep their order when one more joins them. -/
theorem test_expiries_witness :
    let s : State := { quietExpiries with pending := [.silenceExpiry 30] }
    s.arbiter.expiries.Pairwise (· < ·) ∧ s.nextOperation? = some (.expiry 2) ∧ (match step s with
      | .next t => t.arbiter.expiries == [2, 5, 30]
      | _ => false) = true := by decide +kernel

/-- The ticket counter at its ends, and the place by priority: behind its equals, before the lower ones. -/
theorem test_new_entry_witness :
    let t : Tables := { mixed with
      queue := [entryOf 254 1 3 1 false, entryOf 255 30 1 1 false, entryOf 1 30 0 1 false], ticket := 255 }
    (t.enqueue 1 ⟨1, false, true, 1, 0, 0⟩).2 = 2 ∧
      (t.enqueue 1 ⟨1, false, true, 1, 0, 0⟩).1.queue.map PendingEntry.ticket = [254, 255, 2, 1] ∧
      ({ mixed with ticket := 255 }.enqueue 1 ⟨1, false, true, 1, 0, 0⟩).1.ticket = 1 := by decide +kernel

theorem test_pass_visit_witness :
    let e := entryOf 4 1 0 1 false
    (mixed.visit { e with count := 6 }).2 = .removed ∧ (mixed.visit { e with count := 5 }).2 = .granted ∧
      (mixed.visit { e with station := 30, count := 8, contiguous := true }).2 = .granted ∧
      ({ mixed with slots := freshSlots 0 }.visit e).2 = .stayed := by decide +kernel

/-! ### The invariants -/

/-- A state that meets the premises of every invariant: reset with one JOINED station, a poll in the queue of commands. -/
def quietState : State :=
  { State.reset with te := Tables.powerOn.setStation 1 (some (station 7 8)), pending := [.poll] }

theorem quietState_station? (a : Nat) (st : Station) (h : quietState.te.station? a = some st) : st = station 7 8 := by
  by_cases ha : a = 1
  · subst ha; simpa [quietState, Tables.station?, Tables.setStation, setNth, nth?, Tables.powerOn, Config.stationCount] using h.symm
  · have h1 : quietState.te.station? a = Tables.powerOn.station? a := by
      simp only [quietState, Tables.station?, Tables.setStation, nth?, setNth]
      by_cases h0 : a = 0
      · simp [h0]
      · have : ¬ (0 = a - 1) := by omega
        simp [h0, this]
    rw [h1] at h
    by_cases h0 : a = 0
    · simp [h0, Tables.station?, nth?] at h
    · have hn : Tables.powerOn.station? a = none := by
        simp only [Tables.station?, Tables.powerOn, nth?, h0, if_false, List.getElem?_replicate]; split <;> rfl
      rw [hn] at h; simp at h

theorem quietState_lease? (i : Nat) : quietState.te.lease? i = none := by
  simp only [quietState, Tables.lease?, Tables.entry, Tables.setStation, Tables.powerOn, nth?]
  by_cases h0 : i = 0
  · simp [h0]
  · simp only [h0, if_false, List.getElem?_replicate]
    split <;> rfl

theorem test_shape_witness : quietState.te.shaped := by
  unfold Tables.shaped Tables.sized Policy.inRange Tables.areaSplit; decide +kernel

theorem test_leases_and_cooling_witness : quietState.te.coolingBounded ∧ quietState.te.leasesSound := by
  have h : ∀ n ∈ slotNumbers, quietState.te.slotState? n = none ∨ quietState.te.slotState? n = some (.free false) := by
    decide +kernel
  exact ⟨fun n hn _ _ h' => by rcases h n hn with h | h <;> rw [h] at h' <;> simp at h',
    fun i l h => by rw [quietState_lease?] at h; simp at h⟩

theorem test_notices_witness : quietState.te.noticesNumbered := by
  intro a _ st h; rw [quietState_station? a st h]
  exact ⟨by decide, fun k n h => by simp [station] at h⟩

theorem test_queue_witness : quietState.te.queueOrdered := by unfold Tables.queueOrdered; decide

theorem test_map_witness : quietState.te.mapMatchesLeases := by
  refine ⟨fun n hn i => ?_, fun i l h => by rw [quietState_lease?] at h; simp at h⟩
  have h : ∀ m ∈ slotNumbers, quietState.te.slotState? m = none ∨ quietState.te.slotState? m = some (.free false) := by
    decide +kernel
  constructor
  · intro h'; rcases h n hn with h | h <;> rw [h] at h' <;> simp at h'
  · rintro ⟨l, h', _⟩; rw [quietState_lease?] at h'; simp at h'

/-- Slot 6 in its last period of cooling, from tables that keep every invariant. -/
def coolingTables : Tables := quietState.te.setSlotState 6 (.cooling 1 0)

theorem test_cooling_end_witness : coolingTables.shaped ∧ coolingTables.mapMatchesLeases ∧
    coolingTables.slotState? 6 = some (.cooling 1 0) ∧
    (tablesAfter (.coolingEnd 6) (closing coolingTables)).map (fun t => t.slot 6) = some (.inArea (.free false) .quiet) := by
  have hs : coolingTables.shaped := by
    unfold Tables.shaped Tables.sized Policy.inRange Tables.areaSplit; decide +kernel
  have hl : ∀ i, coolingTables.lease? i = none := fun i => by
    rw [← quietState_lease? i]
    have h : coolingTables.leases = quietState.te.leases := by decide +kernel
    simp only [Tables.lease?, Tables.entry, h]
  have h : ∀ m ∈ slotNumbers, ∀ i ∈ coolingTables.slotState? m, i = .free false ∨ i = .cooling 1 0 := by decide +kernel
  refine ⟨hs, ⟨fun n hn i => ⟨fun h' => ?_, ?_⟩, fun i l h' => by rw [hl] at h'; simp at h'⟩, by decide +kernel,
    by decide +kernel⟩
  · rcases h n hn _ h' with h | h <;> simp at h
  · rintro ⟨l, h', _⟩; rw [hl] at h'; simp at h'

theorem test_counts_witness : quietState.te.countsTrue ∧ quietState.te.namesPresent := by
  refine ⟨fun a _ st h => ?_, fun i l h => by rw [quietState_lease?] at h; simp at h, by decide⟩
  rw [quietState_station? a st h]
  have : quietState.te.leasesOf a = [] := by
    have h0 : (quietState.te.leases.filterMap LeaseEntry.lease) = [] := by decide +kernel
    simp [Tables.leasesOf, h0]
  rw [this]; exact ⟨rfl, rfl, rfl, by decide⟩

theorem test_trunk_witness : quietState.trunk.ranged ∧ quietState.imagesWhole := by
  refine ⟨⟨trivial, by decide⟩, fun b h => by simp [quietState, State.reset] at h,
    fun b h => by simp [quietState, State.reset] at h, fun _ => rfl⟩

/-- The step answers a next state there, so the invariants speak of it. -/
theorem test_step_witness : (match step quietState with
    | .next t => t.line.exchange == .sendPoll 0 openPollFrame 150 70
    | _ => false) = true := by decide +kernel

/-- An alarm flag set, and a command that is none of those that clear it. -/
theorem test_alarm_stays_witness :
    let s : State := { quietState with te := { quietState.te with alarms := 0x40 } }
    s.te.alarmSet .noticeOverflow = true ∧ (after .tclkLost s).map (fun t => t.te.alarmSet .noticeOverflow) = some true := by
  decide +kernel

/-! ### Hypotheses met together -/

/-- The record of station 1 in `mixed`. -/
def stationOne : Station := (mixed.station? 1).getD (station 7 8)

/-- The lease of an entry of `mixed`. -/
def leaseOf (i : Nat) : Lease := (mixed.lease? i).getD (Lease.fresh 0 [] none 0 false)

/-- Every lease entry in use. -/
def fullTables : Tables :=
  { mixed with leases := mixed.leases.map fun e => ⟨e.epoch, some (Lease.fresh 31 [9] none 0 false)⟩ }

/-- A request of station 1 waits, whatever it is. -/
theorem test_request_waits_witness (r : List Byte) : (asking 1 4 r mixed).requestWaits 1 4 r stationOne :=
  have h : mixed.station? 1 = some stationOne := by decide +kernel
  ⟨rfl, h, by decide +kernel⟩

/-- A valid handle of an own ACTIVE lease, an own ENDING one and the house's; a stale one. -/
theorem test_handles_witness :
    mixed.names 1 0 (leaseOf 1) ∧ mixed.names 2 0 (leaseOf 2) ∧ mixed.names 48 0 (leaseOf 48) ∧ mixed.stale 3 0 ∧
      mixed.stale 1 15 ∧ (leaseOf 1).owner = 1 ∧ (leaseOf 1).phase = .active ∧ (leaseOf 2).owner = 1 ∧
      (leaseOf 2).phase = .ending .revoked 8 (some 0) ∧ (leaseOf 48).owner = 31 := by
  unfold Tables.names Tables.stale; decide +kernel

/-- The premises of a grant at once, and a lease table without a FREE entry. -/
theorem test_grant_premises_witness :
    stationOne.held + 5 ≤ stationOne.quota ∧ (∀ e ∈ mixed.queue, e.anchored = false) ∧
      mixed.choice 5 true = some [8, 9, 10, 11, 12] ∧ mixed.lowestFree 3 ∧ fullTables.noneFree := by
  refine ⟨by decide +kernel, by decide +kernel, by decide +kernel, test_lowest_free_witness, fun j h1 h2 => ?_⟩
  have h : ∀ j ∈ leaseIndices, (fullTables.lease? j).isSome = true := by decide +kernel
  exact h j (List.mem_range'_1.mpr ⟨h1, by simp only [Config.leaseCount] at *; omega⟩)

/-- The leases station 1 owns from entry 2 on, and its tickets. -/
theorem test_list_mine_premises_witness (i : Nat) :
    i ∈ [2] ↔ (2 : Byte).toNat ≤ i ∧ i ≤ 48 ∧ ∃ l, mixed.lease? i = some l ∧ l.owner = 1 := by
  have h : ∀ j ∈ List.range' 2 47, (mixed.lease? j).any (fun l => l.owner == 1) = (j == 2) := by decide +kernel
  constructor
  · intro hi
    obtain rfl : i = 2 := by simpa using hi
    exact ⟨by decide, by decide, leaseOf 2, by decide +kernel, by decide +kernel⟩
  · rintro ⟨h1, h2, l, hl, ho⟩
    have hj := h i (List.mem_range'_1.mpr ⟨h1, by omega⟩)
    rw [hl] at hj
    simp [ho] at hj
    simp [← hj]

/-- CLEAR_LEASES, an audit and the removal of a station, from tables that keep every invariant. -/
theorem test_sound_tables_witness :
    (busy [0x10] quietState.te).te.shaped ∧ (busy [0x10] quietState.te).te.mapMatchesLeases ∧
      (busy [0x10] quietState.te).te.queueOrdered ∧ (busy [0x10] quietState.te).port.mailbox = .busy [0x10] ∧
      (List.replicate 63 Finding.active).length = 63 ∧ quietState.te.sized ∧ quietState.te.namesPresent ∧
      (quietState.te.station? 1).isSome :=
  ⟨test_shape_witness, test_map_witness, test_queue_witness, rfl, rfl, test_shape_witness.1, test_counts_witness.2,
    by decide +kernel⟩

end Sys2Proof.Tests
end

section
/-! SUPPORT. The slot commands BAR and UNBAR (R14, R15): how a row of a ranged command reaches its operation, what the two
operations do to a slot by its state, and the statements about them. -/

namespace Sys2Proof.Machine

/-! ### A ranged command at its row -/

/-- A command out of its range: the row answers BAD_VALUE and no table changes. -/
theorem manage_outOfRange (s : State) (c : List Byte) (inRange : Bool) (x : Command) (h : s.port.mailbox = .busy c)
    (hp : parseCommand s.te.policy.streamArea c = .ranged inRange x) (hr : inRange = false) :
    s.manage c = s.responded s.te (c.headD 0) .badValue [] :=
  manage_bad s c .badValue h (by rw [hp, hr, ranged_false])

/-- A command within its range, other than SOFT_RESET: the row answers what the command does to the tables. -/
theorem manage_inRange (s : State) (c : List Byte) (inRange : Bool) (x : Command) (h : s.port.mailbox = .busy c)
    (hp : parseCommand s.te.policy.streamArea c = .ranged inRange x) (hx : x ≠ .softReset) (hr : inRange = true) :
    s.manage c = s.responded (s.te.runCommand s.trunk.sync x).tables (c.headD 0)
      (s.te.runCommand s.trunk.sync x).result (s.te.runCommand s.trunk.sync x).body :=
  manage_good s c x h (by rw [hp, hr, ranged_true]) hx

theorem inArea_eq_false (area n : Nat) (h : n = 0 ∨ 63 < n ∨ area < n) : inArea area n = false := by
  rw [← Bool.not_eq_true, inArea_iff]; omega

/-! ### The state of a slot of the stream area -/

theorem slotState?_of_inArea (t : Tables) (n : Nat) (st : SlotState) (last : Finding) (h : t.slot n = .inArea st last) :
    t.slotState? n = some st := by
  simp [Tables.slotState?, h]

/-- A change of state of a slot of the stream area keeps its last activity (R2). -/
theorem setSlotState_of_inArea (t : Tables) (n : Nat) (old new : SlotState) (last : Finding)
    (h : t.slot n = .inArea old last) : t.setSlotState n new = t.setSlot n (.inArea new last) := by
  simp [Tables.setSlotState, h]

/-! ### BAR (R14) -/

theorem bar_free (t : Tables) (n : Nat) (mark : Bool) (last : Finding) (h : t.slot n = .inArea (.free mark) last) :
    t.bar n = ⟨t.setSlot n (.inArea (.barred .manager) last), .ok, []⟩ := by
  simp [Tables.bar, slotState?_of_inArea t n _ last h, setSlotState_of_inArea t n _ _ last h]

theorem bar_cooling (t : Tables) (n cool linger : Nat) (last : Finding)
    (h : t.slot n = .inArea (.cooling cool linger) last) :
    t.bar n = ⟨t.setSlot n (.inArea (.barred .manager) last), .ok, []⟩ := by
  simp [Tables.bar, slotState?_of_inArea t n _ last h, setSlotState_of_inArea t n _ _ last h]

theorem bar_leased (t : Tables) (n i : Nat) (last : Finding) (h : t.slot n = .inArea (.leased i) last) :
    t.bar n = ⟨t, .slotInUse, []⟩ := by
  simp [Tables.bar, slotState?_of_inArea t n _ last h, Tables.refuse]

theorem bar_barred (t : Tables) (n : Nat) (reason : BarReason) (last : Finding)
    (h : t.slot n = .inArea (.barred reason) last) : t.bar n = ⟨t, .ok, []⟩ := by
  simp [Tables.bar, slotState?_of_inArea t n _ last h]

/-- BAR of a number outside the stream area. -/
theorem exec_bar_outOfRange (n : Byte) (s : State) (h : s.port.mailbox = .busy [0x0C, n])
    (hn : n.toNat = 0 ∨ 63 < n.toNat ∨ s.te.policy.streamArea < n.toNat) :
    exec (.bar [n]) s = .next (s.responded s.te 0x0C .badValue []) :=
  congrArg _ (manage_outOfRange s _ _ _ h (parse_bar _ n) (inArea_eq_false _ _ hn))

/-- BAR of a slot of the stream area, the outcome of the operation given. -/
theorem exec_bar_inRange (n : Byte) (s : State) (o : CmdOutcome) (h : s.port.mailbox = .busy [0x0C, n])
    (hn : inArea s.te.policy.streamArea n.toNat = true) (ho : s.te.bar n.toNat = o) :
    exec (.bar [n]) s = .next (s.responded o.tables 0x0C o.result o.body) := by
  subst ho
  exact congrArg _ (manage_inRange s _ _ _ h (parse_bar _ n) nofun hn)

/-- Settles O16: the row reaches the operation by the range of the number, and the operation goes by the state. -/
theorem barFollowsSlotState : Obligations.BarFollowsSlotState := by
  intro n s h
  refine ⟨exec_bar_outOfRange n s h, fun h1 h63 harea last => ?_⟩
  have hn : inArea s.te.policy.streamArea n.toNat = true := (inArea_iff _ _).mpr ⟨h1, harea, h63⟩
  exact ⟨fun mark hs => exec_bar_inRange n s _ h hn (bar_free _ _ mark last hs),
    fun cool linger hs => exec_bar_inRange n s _ h hn (bar_cooling _ _ cool linger last hs),
    fun i hs => exec_bar_inRange n s _ h hn (bar_leased _ _ i last hs),
    fun reason hs => exec_bar_inRange n s _ h hn (bar_barred _ _ reason last hs)⟩

/-! ### UNBAR (R15) -/

theorem unbar_barred (t : Tables) (n : Nat) (reason : BarReason) (last : Finding)
    (h : t.slot n = .inArea (.barred reason) last) :
    t.unbar n = ⟨(t.setSlot n (.inArea (.free false) last)).queuePass, .ok, []⟩ := by
  simp [Tables.unbar, slotState?_of_inArea t n _ last h, setSlotState_of_inArea t n _ _ last h]

/-- A slot of the stream area in any other state is refused. -/
theorem unbar_notBarred (t : Tables) (n : Nat) (st : SlotState) (last : Finding) (h : t.slot n = .inArea st last)
    (hst : ∀ reason, st ≠ .barred reason) : t.unbar n = ⟨t, .notAllowed, []⟩ := by
  have hs := slotState?_of_inArea t n st last h
  cases st with
  | barred reason => exact absurd rfl (hst reason)
  | free mark => simp [Tables.unbar, hs, Tables.refuse]
  | leased i => simp [Tables.unbar, hs, Tables.refuse]
  | cooling cool linger => simp [Tables.unbar, hs, Tables.refuse]

/-- UNBAR of a number outside the stream area. -/
theorem exec_unbar_outOfRange (n : Byte) (s : State) (h : s.port.mailbox = .busy [0x0D, n])
    (hn : n.toNat = 0 ∨ 63 < n.toNat ∨ s.te.policy.streamArea < n.toNat) :
    exec (.unbar [n]) s = .next (s.responded s.te 0x0D .badValue []) :=
  congrArg _ (manage_outOfRange s _ _ _ h (parse_unbar _ n) (inArea_eq_false _ _ hn))

/-- UNBAR of a slot of the stream area, the outcome of the operation given. -/
theorem exec_unbar_inRange (n : Byte) (s : State) (o : CmdOutcome) (h : s.port.mailbox = .busy [0x0D, n])
    (hn : inArea s.te.policy.streamArea n.toNat = true) (ho : s.te.unbar n.toNat = o) :
    exec (.unbar [n]) s = .next (s.responded o.tables 0x0D o.result o.body) := by
  subst ho
  exact congrArg _ (manage_inRange s _ _ _ h (parse_unbar _ n) nofun hn)

/-- Settles O17: the row reaches the operation by the range of the number, and the operation goes by the state. -/
theorem unbarFreesAndPasses : Obligations.UnbarFreesAndPasses := by
  intro n s h
  refine ⟨exec_unbar_outOfRange n s h, fun h1 h63 harea last => ?_⟩
  have hn : inArea s.te.policy.streamArea n.toNat = true := (inArea_iff _ _).mpr ⟨h1, harea, h63⟩
  exact ⟨fun reason hs => exec_unbar_inRange n s _ h hn (unbar_barred _ _ reason last hs),
    fun mark hs => exec_unbar_inRange n s _ h hn (unbar_notBarred _ _ _ last hs nofun),
    fun i hs => exec_unbar_inRange n s _ h hn (unbar_notBarred _ _ _ last hs nofun),
    fun cool linger hs => exec_unbar_inRange n s _ h hn (unbar_notBarred _ _ _ last hs nofun)⟩

end Sys2Proof.Machine
end

section
/-! SUPPORT. The allocation choice and the possibility test (R6, R7, section 3.1): what a candidate and a usable slot are,
the lowest run of slots that pass a test, and the statement about them. -/

namespace Sys2Proof.Machine

/-! ### Candidates and usable slots -/

/-- A number whose record shows a state is not 0: the map counts from 1 (R1). -/
theorem one_le_of_slotState? (t : Tables) (n : Nat) (st : SlotState) (h : t.slotState? n = some st) : 1 ≤ n := by
  by_contra h0
  obtain rfl : n = 0 := by omega
  simp [Tables.slotState?, Tables.slot, nth?_zero] at h

theorem isCandidate_iff (t : Tables) (n : Nat) :
    t.isCandidate n = true ↔ 1 ≤ n ∧ n ≤ t.policy.streamArea ∧ t.slotState? n = some (.free false) := by
  have h1 := one_le_of_slotState? t n (.free false)
  simp only [Tables.isCandidate, Bool.and_eq_true, decide_eq_true_eq, beq_iff_eq]
  tauto

theorem isUsable_iff (t : Tables) (n : Nat) :
    t.isUsable n = true ↔ 1 ≤ n ∧ n ≤ t.policy.streamArea ∧
      ∃ state, t.slotState? n = some state ∧ ∀ reason, state ≠ .barred reason := by
  cases hs : t.slotState? n with
  | none => simp [Tables.isUsable, hs]
  | some st =>
    have h1 := one_le_of_slotState? t n st hs
    cases st <;> simp [Tables.isUsable, hs, h1]

/-- The test picks slots of the stream area only. -/
def Tables.testsArea (t : Tables) (good : Nat → Bool) : Prop :=
  ∀ n, good n = true → 1 ≤ n ∧ n ≤ t.policy.streamArea

theorem isCandidate_testsArea (t : Tables) : t.testsArea t.isCandidate := fun n h =>
  let ⟨h1, harea, _⟩ := (isCandidate_iff t n).mp h
  ⟨h1, harea⟩

theorem isUsable_testsArea (t : Tables) : t.testsArea t.isUsable := fun n h =>
  let ⟨h1, harea, _⟩ := (isUsable_iff t n).mp h
  ⟨h1, harea⟩

/-! ### The slots that pass a test, in ascending order -/

theorem mem_area (t : Tables) (n : Nat) : n ∈ t.area ↔ 1 ≤ n ∧ n ≤ t.policy.streamArea := by
  simp only [Tables.area, List.mem_range'_1]; omega

theorem mem_filter_area (t : Tables) (good : Nat → Bool) (hg : t.testsArea good) (n : Nat) :
    n ∈ t.area.filter good ↔ good n = true := by
  rw [List.mem_filter, mem_area]
  exact and_iff_right_of_imp (hg n)

theorem filter_area_ascending (t : Tables) (good : Nat → Bool) : (t.area.filter good).Pairwise (· < ·) :=
  (List.pairwise_lt_range' 1).filter good

/-- The candidates are the FREE unmarked slots of the stream area. -/
theorem filter_isCandidate (t : Tables) : t.area.filter t.isCandidate =
    (List.range' 1 t.policy.streamArea).filter fun n => t.slotState? n == some (.free false) :=
  List.filter_congr fun n hn => by simp [Tables.isCandidate, ((mem_area t n).mp hn).2]

/-- The usable slots are counted once each, whatever list names them. -/
theorem usableSlots_eq_length (t : Tables) (ns : List Nat) (hnd : ns.Nodup)
    (hmem : ∀ n, n ∈ ns ↔ t.isUsable n = true) : t.usableSlots = ns.length := by
  have hnd' : (t.area.filter t.isUsable).Nodup := (filter_area_ascending t _).imp Nat.ne_of_lt
  refine ((List.perm_ext_iff_of_nodup hnd' hnd).mpr fun n => ?_).length_eq
  rw [mem_filter_area t _ (isUsable_testsArea t), hmem]

/-- The first elements of an ascending list are below every other one. -/
theorem take_lt_of_not_mem (cs : List Nat) (count n m : Nat) (hcs : cs.Pairwise (· < ·)) (hn : n ∈ cs)
    (hout : n ∉ cs.take count) (hm : m ∈ cs.take count) : m < n := by
  rw [← List.take_append_drop count cs] at hcs hn
  obtain ⟨-, -, hlt⟩ := List.pairwise_append.mp hcs
  exact hlt m hm n ((List.mem_append.mp hn).resolve_left hout)

/-! ### The choice without the contiguous flag (R6) -/

theorem choice_scattered_eq_some (t : Tables) (count : Nat) (ns : List Nat) : t.choice count false = some ns ↔
    count ≤ (t.area.filter t.isCandidate).length ∧ ns = (t.area.filter t.isCandidate).take count := by
  simp [Tables.choice, eq_comm]

theorem choice_scattered_eq_none (t : Tables) (count : Nat) :
    t.choice count false = none ↔ (t.area.filter t.isCandidate).length < count := by
  simp [Tables.choice]

/-! ### Runs of adjoining slots (R7) -/

/-- As many adjoining numbers as asked for, from one on, all pass the test. -/
def isRun (good : Nat → Bool) (count k : Nat) : Prop := ∀ n, k ≤ n → n < k + count → good n = true

theorem all_range'_iff_isRun (good : Nat → Bool) (count k : Nat) :
    (List.range' k count).all good = true ↔ isRun good count k := by
  simp [isRun, List.mem_range'_1]

/-- A run that is not empty begins in the stream area. -/
theorem isRun_start (t : Tables) (good : Nat → Bool) (hg : t.testsArea good) (count k : Nat) (hc : 1 ≤ count)
    (h : isRun good count k) : 1 ≤ k ∧ k ≤ t.policy.streamArea :=
  hg k (h k le_rfl (by omega))

theorem lowestRun_eq_some (t : Tables) (good : Nat → Bool) (hg : t.testsArea good) (count : Nat) (hc : 1 ≤ count)
    (ns : List Nat) : t.lowestRun count good = some ns ↔
      ∃ k, isRun good count k ∧ (∀ j, isRun good count j → k ≤ j) ∧ ns = List.range' k count := by
  simp only [Tables.lowestRun, Tables.area, Option.map_eq_some_iff, List.find?_range'_eq_some, Bool.not_eq_true',
    ← Bool.not_eq_true, all_range'_iff_isRun, eq_comm (b := ns)]
  refine exists_congr fun k => ⟨?_, ?_⟩
  · rintro ⟨⟨hk, -, hlow⟩, hns⟩
    refine ⟨hk, fun j hj => ?_, hns⟩
    by_contra hlt
    exact hlow j (isRun_start t good hg count j hc hj).1 (by omega) hj
  · rintro ⟨hk, hlow, hns⟩
    have hstart := isRun_start t good hg count k hc hk
    exact ⟨⟨hk, (mem_area t k).mpr hstart, fun j _ hjk hj => absurd (hlow j hj) (by omega)⟩, hns⟩

theorem lowestRun_eq_none (t : Tables) (good : Nat → Bool) (hg : t.testsArea good) (count : Nat) (hc : 1 ≤ count) :
    t.lowestRun count good = none ↔ ∀ k, ¬ isRun good count k := by
  simp only [Tables.lowestRun, Tables.area, Option.map_eq_none_iff, List.find?_range'_eq_none, Bool.not_eq_true',
    ← Bool.not_eq_true, all_range'_iff_isRun]
  refine ⟨fun h k hk => ?_, fun h k _ _ => h k⟩
  obtain ⟨h1, harea⟩ := isRun_start t good hg count k hc hk
  exact h k h1 (by omega) hk

theorem choice_contiguous (t : Tables) (count : Nat) : t.choice count true = t.lowestRun count t.isCandidate := rfl

/-- A run of candidates, in the terms of section 1.4. -/
theorem isRun_isCandidate_iff (t : Tables) (count k : Nat) (hc : 1 ≤ count) : isRun t.isCandidate count k ↔
    1 ≤ k ∧ ∀ n, k ≤ n → n < k + count → n ≤ t.policy.streamArea ∧ t.slotState? n = some (.free false) := by
  constructor
  · intro h
    refine ⟨(isRun_start t _ (isCandidate_testsArea t) count k hc h).1, fun n h1 h2 => ?_⟩
    exact ((isCandidate_iff t n).mp (h n h1 h2)).2
  · rintro ⟨hk, h⟩ n h1 h2
    exact (isCandidate_iff t n).mpr ⟨by omega, h n h1 h2⟩

/-! ### The possibility test (3.1) -/

theorem possible_scattered_iff (t : Tables) (count : Nat) :
    t.possible count false = true ↔ count ≤ t.usableSlots := by
  simp [Tables.possible]

theorem possible_contiguous_iff (t : Tables) (count : Nat) (hc : 1 ≤ count) : t.possible count true = true ↔
    count ≤ t.usableSlots ∧ ∃ k, isRun t.isUsable count k := by
  have hrun := lowestRun_eq_none t _ (isUsable_testsArea t) count hc
  simp only [Tables.possible, Bool.not_true, Bool.false_or, Bool.and_eq_true, decide_eq_true_eq,
    Option.isSome_iff_ne_none, ne_eq, hrun, not_forall, not_not]

/-! ### The statement -/

/-- The lowest candidates, when there are enough of them. -/
theorem choice_scattered_lowest (t : Tables) (count : Nat) (ns : List Nat) (h : t.choice count false = some ns) :
    ns.length = count ∧ ns.Pairwise (· < ·) ∧ (∀ n ∈ ns, t.isCandidate n = true) ∧
      ∀ n, t.isCandidate n = true → n ∉ ns → ∀ m ∈ ns, m < n := by
  obtain ⟨hlen, rfl⟩ := (choice_scattered_eq_some t count ns).mp h
  have hmem := mem_filter_area t _ (isCandidate_testsArea t)
  have hasc := filter_area_ascending t t.isCandidate
  exact ⟨List.length_take_of_le hlen, hasc.take, fun n hn => (hmem n).mp (List.mem_of_mem_take hn),
    fun n hn hout m hm => take_lt_of_not_mem _ count n m hasc ((hmem n).mpr hn) hout hm⟩

/-- Settles O50: the choice takes the first of the ascending candidates, or the first place in ascending order where a run
begins, and the possibility test counts the usable slots and looks for a run of them. -/
theorem choiceTakesLowest : Obligations.ChoiceTakesLowest := by
  refine ⟨fun count t => ?_, fun count t hc => ?_, fun count t hc => ?_⟩
  · simp only [← isCandidate_iff, ← filter_isCandidate]
    exact ⟨choice_scattered_lowest t count, choice_scattered_eq_none t count⟩
  · simp only [← isRun_isCandidate_iff t count _ hc, choice_contiguous]
    exact ⟨lowestRun_eq_some t _ (isCandidate_testsArea t) count hc,
      lowestRun_eq_none t _ (isCandidate_testsArea t) count hc⟩
  · simp only [← isUsable_iff]
    intro ns hnd hmem
    rw [← usableSlots_eq_length t ns hnd hmem]
    exact ⟨possible_scattered_iff t count, possible_contiguous_iff t count hc⟩

end Sys2Proof.Machine
end

section
/-! SUPPORT. The miss report (R81, R82): how its row reaches the operation, what a miss does to a station's entry, and the
statement about it. -/

namespace Sys2Proof.Machine

/-! ### A miss report at its row -/

/-- A miss report that is the arbiter's next operation is taken as it waits: no window expiry is put before it. -/
theorem missReport_waiting (s : State) (a : Nat) (h : s.nextOperation? = some (.station (.miss a))) :
    s.missReport a = s.performMiss a := by
  have hs := nextOperation?_station s _ h
  simp [State.missReport, hs, take_next s _ h, State.perform]

theorem exec_missReport_waiting (a : Nat) (s : State) (te : Tables)
    (h : s.nextOperation? = some (.station (.miss a))) (hte : s.te.miss a = te) :
    exec (.missReport a) s = .next { s with te := te, arbiter := { s.arbiter with station := none } } := by
  subst hte
  exact congrArg _ (missReport_waiting s a h)

/-! ### A miss in the tables -/

theorem miss_absent (t : Tables) (a : Nat) (h : t.station? a = none) : t.miss a = t :=
  modifyStation_none t a _ h

theorem miss_present (t : Tables) (a : Nat) (st st' : Station) (h : t.station? a = some st)
    (hst : st.miss t.policy.missLimit t.policy.silentLimit = st') : t.miss a = t.setStation a (some st') := by
  subst hst
  exact modifyStation_some t a _ st h

/-! ### A miss of one station -/

/-- Below the limit a JOINED station is only counted. -/
theorem station_miss_joined_below (limit silentLimit : Nat) (st : Station) (hl : st.live = .joined)
    (h15 : st.misses < 15) (hlim : st.misses + 1 < limit) :
    st.miss limit silentLimit = { st with misses := st.misses + 1 } := by
  have hmin : min 15 (st.misses + 1) = st.misses + 1 := by omega
  have hnot : ¬ limit ≤ st.misses + 1 := by omega
  simp [Station.miss, hl, hmin, hnot]

/-- At the limit a JOINED station falls SILENT and its timer starts. -/
theorem station_miss_joined_reaches (limit silentLimit : Nat) (st : Station) (hl : st.live = .joined)
    (h15 : st.misses < 15) (hlim : limit ≤ st.misses + 1) :
    st.miss limit silentLimit = { st with misses := st.misses + 1, live := .silent silentLimit } := by
  have hmin : min 15 (st.misses + 1) = st.misses + 1 := by omega
  simp [Station.miss, hl, hmin, hlim]

/-- A SILENT station is counted up to 15, whatever the limit, and its timer is not touched. -/
theorem station_miss_silent (limit silentLimit ms : Nat) (st : Station) (hl : st.live = .silent ms) :
    st.miss limit silentLimit = { st with misses := min 15 (st.misses + 1) } := by
  simp [Station.miss, hl]

/-! ### The statement -/

/-- Settles O34: the row takes the waiting report, and the report goes by the entry at its address: none, JOINED below or at
the limit, SILENT. -/
theorem missReportCounts : Obligations.MissReportCounts := by
  intro a s h
  refine ⟨fun habs => exec_missReport_waiting a s _ h (miss_absent _ a habs), fun st hst => ?_⟩
  have hpresent : ∀ st', st.miss s.te.policy.missLimit s.te.policy.silentLimit = st' →
      exec (.missReport a) s =
        .next { s with te := s.te.setStation a (some st'), arbiter := { s.arbiter with station := none } } :=
    fun st' hm => exec_missReport_waiting a s _ h (miss_present _ a st st' hst hm)
  exact ⟨fun hl h15 hlim => hpresent _ (station_miss_joined_below _ _ st hl h15 hlim),
    fun hl h15 hlim => hpresent _ (station_miss_joined_reaches _ _ st hl h15 hlim),
    fun ms hl => hpresent _ (station_miss_silent _ _ ms st hl)⟩

end Sys2Proof.Machine
end

section
/-! SUPPORT. The Management Port (R172 to R175, R184, R185, 12.4): WRITE COMMAND by the port state, the alarm masks, ALERT_N
and the status byte, SDO, the transactions by their function byte, and the statements about them. -/

namespace Sys2Proof.Machine

/-! ### WRITE COMMAND (R175) -/

theorem exec_writeCommand_whole (c : List Byte) (s : State) :
    exec (.writeCommand ⟨c, true⟩) s = .next (s.writeCommand c) := rfl

/-- A port that is IDLE or DONE judges by the count of bytes alone. -/
theorem writeCommand_notBusy (s : State) (c : List Byte) (h : ∀ b, s.port.mailbox ≠ .busy b) :
    s.writeCommand c = if 1 ≤ c.length ∧ c.length ≤ 24 then
      { s with port := { s.port with mailbox := .busy c, rejected := false } }
    else { s with port := { s.port with rejected := true } } := by
  cases hm : s.port.mailbox with
  | busy b => exact absurd hm (h b)
  | idle => simp [State.writeCommand, hm, Config.commandMax]
  | done r => simp [State.writeCommand, hm, Config.commandMax]

theorem writeCommand_busy (s : State) (c b : List Byte) (h : s.port.mailbox = .busy b) :
    s.writeCommand c = { s with port := { s.port with rejected := true } } := by
  simp [State.writeCommand, h]

/-- Settles O7: a port that is not BUSY goes by the count of bytes, a BUSY one rejects, and the command it then holds is the
arbiter's next operation. -/
theorem writeCommandJudgedByPortState : Obligations.WriteCommandJudgedByPortState := by
  intro c s
  simp only [exec_writeCommand_whole]
  refine ⟨fun hm h1 h24 => ⟨_, rfl, ?_, ?_⟩, fun hm hlen => ?_, fun b hm => ?_, rfl⟩
  · rw [writeCommand_notBusy s c hm, if_pos ⟨h1, h24⟩]
  · rw [writeCommand_notBusy s c hm, if_pos ⟨h1, h24⟩]
    exact nextOperation?_busy _ c rfl
  · rw [writeCommand_notBusy s c hm, if_neg (by omega)]
  · rw [writeCommand_busy s c b hm]

/-! ### The alarm masks (R184) -/

theorem exec_writeAlarmEnable_mask (mask : Byte) (more : List Byte) (s : State) :
    exec (.writeAlarmEnable ⟨mask :: more, true⟩) s =
      .next { s with port := { s.port with enables := mask.setWidth 7 } } := rfl

theorem exec_clearAlarms_mask (mask : Byte) (more : List Byte) (s : State) :
    exec (.clearAlarms ⟨mask :: more, true⟩) s = .next { s with te := s.te.clearAlarms mask } := rfl

/-- A flag stays set when it was set and its mask bit is clear. -/
theorem clearAlarms_getLsbD (t : Tables) (mask : Byte) (k : Nat) (h : k < 7) :
    (t.clearAlarms mask).alarms.getLsbD k = (t.alarms.getLsbD k && !mask.getLsbD k) := by
  simp [Tables.clearAlarms, h]

/-- Seven bits of a byte, read back as a byte, have bit 7 clear. -/
theorem setWidth_seven_eight (mask : Byte) : (mask.setWidth 7).setWidth 8 = mask &&& 0x7F := by
  revert mask; decide +kernel

/-- Settles O8: a mask byte is taken as its seven low bits, those of the flags; nothing else of a transaction is looked at. -/
theorem alarmMasksActBitByBit : Obligations.AlarmMasksActBitByBit := by
  refine ⟨fun mask more s => ⟨mask.setWidth 7, exec_writeAlarmEnable_mask mask more s, fun k hk => ?_, ?_⟩,
    fun mask more s => ⟨_, exec_clearAlarms_mask mask more s, clearAlarms_getLsbD s.te mask⟩,
    fun s => ⟨rfl, rfl⟩, fun bytes s => ⟨rfl, rfl⟩⟩
  · simp [hk]
  · simp [State.readAlarms, setWidth_seven_eight]

/-! ### ALERT_N and the status byte (R185, R173, 12.4) -/

theorem Alarm.bit_lt (a : Alarm) : a.bit < 7 := by cases a <;> decide

/-- Each of the seven bits is the place of a flag. -/
theorem Alarm.exists_bit_eq (k : Nat) (h : k < 7) : ∃ a : Alarm, a.bit = k :=
  match k, h with
  | 0, _ => ⟨.trespass, rfl⟩
  | 1, _ => ⟨.linger, rfl⟩
  | 2, _ => ⟨.syncLost, rfl⟩
  | 3, _ => ⟨.stationLost, rfl⟩
  | 4, _ => ⟨.tableFull, rfl⟩
  | 5, _ => ⟨.queueFull, rfl⟩
  | 6, _ => ⟨.noticeOverflow, rfl⟩

/-- Flags that are not all clear have one that is set. -/
theorem flags_ne_zero_iff (v : BitVec 7) : v ≠ 0 ↔ ∃ a : Alarm, v.getLsbD a.bit = true := by
  refine ⟨fun hv => ?_, fun ⟨a, ha⟩ h0 => by simp [h0] at ha⟩
  by_contra hnone
  refine hv (BitVec.eq_of_getLsbD_eq fun k hk => ?_)
  obtain ⟨a, rfl⟩ := Alarm.exists_bit_eq k hk
  simpa using not_exists.mp hnone a

theorem alertN_eq_false_iff (s : State) :
    s.alertN = false ↔ ∃ a : Alarm, s.te.alarmSet a = true ∧ s.port.enables.getLsbD a.bit = true := by
  simp only [State.alertN, State.alertAsserted, Bool.not_eq_false', bne_iff_ne, flags_ne_zero_iff, BitVec.getLsbD_and,
    Bool.and_eq_true, Tables.alarmSet]

/-- A flag's bit above every bit of a byte adds its weight. -/
theorem toNat_or_flagBit (x : Byte) (b : Bool) (place : Nat) (hp : place < 8) (hx : x.toNat < 2 ^ place) :
    (x ||| flagBit b place).toNat = x.toNat + if b then 2 ^ place else 0 := by
  cases b with
  | false => simp [flagBit]
  | true =>
    have hbit : (flagBit true place).toNat = 2 ^ place := by
      simp [flagBit, Nat.shiftLeft_eq, Nat.mod_eq_of_lt (Nat.pow_lt_pow_right Nat.one_lt_two hp)]
    have hsum := Nat.two_pow_add_eq_or_of_lt hx 1
    rw [Nat.mul_one] at hsum
    rw [BitVec.toNat_or, hbit, Nat.or_comm, ← hsum, Nat.add_comm, if_pos rfl]

theorem PortState.code_toNat_lt (p : PortState) : p.code.toNat < 4 := by
  cases p <;> simp [PortState.code]

/-- The fields of the status byte stand above one another (12.4). -/
theorem statusByte_toNat (s : State) : s.statusByte.toNat =
    s.port.mailbox.code.toNat + (if s.port.rejected then 4 else 0) + (if s.te.alarms = 0 then 0 else 8) +
      (if s.alertN then 0 else 16) := by
  have hflag : (if s.te.alarms != 0 then 8 else 0) = if s.te.alarms = 0 then 0 else 8 := by simp
  have halert : (if s.alertAsserted then 16 else 0) = if s.alertN then 0 else 16 := by
    unfold State.alertN; cases s.alertAsserted <;> rfl
  have hcode := s.port.mailbox.code_toNat_lt
  have hrejected := toNat_or_flagBit s.port.mailbox.code s.port.rejected 2 (by decide) hcode
  have hlt3 : (s.port.mailbox.code ||| flagBit s.port.rejected 2).toNat < 2 ^ 3 := by
    rw [hrejected]; split <;> omega
  have halarms := toNat_or_flagBit _ (s.te.alarms != 0) 3 (by decide) hlt3
  have hlt4 : (s.port.mailbox.code ||| flagBit s.port.rejected 2 ||| flagBit (s.te.alarms != 0) 3).toNat < 2 ^ 4 := by
    rw [halarms]; split <;> omega
  rw [State.statusByte, toNat_or_flagBit _ _ 4 (by decide) hlt4, halarms, hrejected, ← hflag, ← halert]; rfl

/-- A flag's place in the byte of seven flags. -/
theorem getLsbD_setWidth_bit (v : BitVec 7) (a : Alarm) : (v.setWidth 8).getLsbD a.bit = v.getLsbD a.bit := by
  have hlt := a.bit_lt
  have h8 : a.bit < 8 := by omega
  simp [h8]

theorem readResponse_done (s : State) (r : CmdResponse) (h : s.port.mailbox = .done r) :
    s.readResponse = [s.statusByte, r.code, r.result.code, byte r.body.length] ++ r.body := by
  simp [State.readResponse, h]

theorem readResponse_notDone (s : State) (h : ∀ r, s.port.mailbox ≠ .done r) : s.readResponse = [s.statusByte] := by
  cases hm : s.port.mailbox with
  | done r => exact absurd hm (h r)
  | idle => simp [State.readResponse, hm]
  | busy b => simp [State.readResponse, hm]

/-! ### Function bytes and SDO (R172, 12.4) -/

/-- The function byte of a port function (12.4). -/
def PortFunction.code : PortFunction → Byte
  | .writeCommand => 0x01
  | .readResponse => 0x02
  | .readStatus => 0x03
  | .readAlarms => 0x04
  | .writeAlarmEnable => 0x05
  | .clearAlarms => 0x06

theorem portFunction?_code (g : PortFunction) : portFunction? g.code = some g := by cases g <;> rfl

/-- A function is named by its own byte only. -/
theorem portFunction?_eq_some_iff (f : Byte) (g : PortFunction) : portFunction? f = some g ↔ f = g.code := by
  refine ⟨fun h => BitVec.eq_of_toNat_eq ?_, fun h => h ▸ portFunction?_code g⟩
  unfold portFunction? at h
  split at h <;> cases h <;> assumption

theorem portFunction?_unknown (f : Byte) (h : f.toNat = 0 ∨ 6 < f.toNat) : portFunction? f = none := by
  refine Option.eq_none_iff_forall_ne_some.mpr fun g hg => ?_
  rw [(portFunction?_eq_some_iff f g).mp hg] at h
  cases g <;> exact absurd h (by decide)

theorem sdo_undriven (s : State) (resetN csN : Bool) (f : Byte) (k : Nat) (h : resetN = false ∨ csN = true) :
    s.sdo resetN csN f k = .undriven := by
  rcases h with rfl | rfl <;> simp [State.sdo]

theorem sdo_drives (s : State) (f b : Byte) (k : Nat) (h : s.sdoByte? f (k / 8) = some b) :
    s.sdo true false f k = .drives (b.getLsbD (7 - k % 8)) := by
  simp [State.sdo, h, shiftedBit]

/-- A byte that names no function gets 00h throughout. -/
theorem sdo_unknown (s : State) (f : Byte) (k : Nat) (h : portFunction? f = none) :
    s.sdo true false f k = .drives false := by
  rw [sdo_drives s f 0 k (by simp [State.sdoByte?, h])]; simp

/-- Bit j of the byte that follows n bytes after the function byte. -/
theorem sdo_afterFunction (s : State) (f b : Byte) (n j : Nat) (hj : j < 8) (h : s.sdoByte? f (n + 1) = some b) :
    s.sdo true false f (8 * (n + 1) + j) = .drives (b.getLsbD (7 - j)) := by
  have hbyte : (8 * (n + 1) + j) / 8 = n + 1 := by omega
  have hplace : (8 * (n + 1) + j) % 8 = j := by omega
  rw [sdo_drives s f b _ (by rw [hbyte, h]), hplace]

theorem readByte_eq (bytes : List Byte) (n : Nat) : readByte bytes n = (bytes[n]?).getD 0 :=
  List.getD_eq_getElem?_getD

theorem sdoByte?_readResponse (s : State) (n : Nat) :
    s.sdoByte? 0x02 (n + 1) = some ((s.readResponse[n]?).getD 0) := congrArg some (readByte_eq _ n)

theorem sdoByte?_readStatus (s : State) (n : Nat) :
    s.sdoByte? 0x03 (n + 1) = some ((s.readStatus[n]?).getD 0) := congrArg some (readByte_eq _ n)

theorem sdoByte?_readAlarms (s : State) (n : Nat) :
    s.sdoByte? 0x04 (n + 1) = some ((s.readAlarms[n]?).getD 0) := congrArg some (readByte_eq _ n)

/-! ### Transactions by their function byte (R172, 12.4) -/

/-- The bits of a transaction on SDI: whole bytes, most significant bit first, and what follows them. -/
def transactionBits (bytes : List Byte) (extra : List Bool) : List Bool :=
  (bytes.flatMap fun b => (List.range 8).map (shiftedBit b)) ++ extra

theorem bytesShifted_transactionBits (bytes : List Byte) (extra : List Bool) (h : extra.length < 8) :
    bytesShifted (transactionBits bytes extra) = bytes := bytesShifted_bits bytes extra h

theorem length_transactionBits (bytes : List Byte) (extra : List Bool) :
    (transactionBits bytes extra).length = 8 * bytes.length + extra.length := by
  simp [transactionBits, List.length_flatMap, Nat.mul_comm]

/-- A transaction carries the bytes after the function byte, and is whole when no bits are left over. -/
theorem spiWriteOf_transactionBits (f : Byte) (bytes : List Byte) (extra : List Bool) (h : extra.length < 8) :
    spiWriteOf (transactionBits (f :: bytes) extra) = ⟨bytes, extra.isEmpty⟩ := by
  have hmod : (transactionBits (f :: bytes) extra).length % 8 = extra.length := by
    rw [length_transactionBits]; omega
  have hwhole : (extra.length == 0) = extra.isEmpty := by cases extra <;> rfl
  rw [spiWriteOf, bytesShifted_transactionBits _ _ h, hmod, hwhole, List.tail_cons]

/-- Without a whole byte there is no function. -/
theorem spiTransaction_noByte (extra : List Bool) (s : State) (h : extra.length < 8) :
    spiTransaction (transactionBits [] extra) s = .next s := by
  simp [spiTransaction, bytesShifted_transactionBits _ _ h]

/-- The row a function's transaction is: a read function has none. -/
def PortFunction.row? (w : SpiWrite) : PortFunction → Option Instr
  | .writeCommand => some (.writeCommand w)
  | .writeAlarmEnable => some (.writeAlarmEnable w)
  | .clearAlarms => some (.clearAlarms w)
  | .readResponse | .readStatus | .readAlarms => none

/-- A transaction under a function's byte is that function's row, and changes nothing when there is none. -/
theorem spiTransaction_function (g : PortFunction) (bytes : List Byte) (extra : List Bool) (s : State)
    (h : extra.length < 8) : spiTransaction (transactionBits (g.code :: bytes) extra) s =
      ((g.row? ⟨bytes, extra.isEmpty⟩).map fun i => exec i s).getD (.next s) := by
  rw [spiTransaction, bytesShifted_transactionBits _ _ h, spiWriteOf_transactionBits _ _ _ h, List.head?_cons,
    Option.bind_some, portFunction?_code]
  cases g <;> rfl

theorem spiTransaction_unknown (f : Byte) (bytes : List Byte) (extra : List Bool) (s : State) (h : extra.length < 8)
    (hf : portFunction? f = none) : spiTransaction (transactionBits (f :: bytes) extra) s = .next s := by
  rw [spiTransaction, bytesShifted_transactionBits _ _ h, List.head?_cons, Option.bind_some, hf]

/-- A byte that names no write changes nothing: it is the byte of a read function or of none. -/
theorem spiTransaction_noWrite (f : Byte) (bytes : List Byte) (extra : List Bool) (s : State) (h : extra.length < 8)
    (hf : f ∉ ([0x01, 0x05, 0x06] : List Byte)) : spiTransaction (transactionBits (f :: bytes) extra) s = .next s := by
  cases hg : portFunction? f with
  | none => exact spiTransaction_unknown f bytes extra s h hg
  | some g =>
    obtain rfl := (portFunction?_eq_some_iff f g).mp hg
    rw [spiTransaction_function g bytes extra s h]
    cases g with
    | readResponse | readStatus | readAlarms => rfl
    | writeCommand | writeAlarmEnable | clearAlarms => exact absurd hf (by decide)

/-- Settles O9: ALERT_N by the flags whose enables are set, the status byte field by field, the read functions as they stand,
SDO by the function byte, and a transaction by the bytes its bits spell. -/
theorem alertFollowsEnabledFlags : Obligations.AlertFollowsEnabledFlags := by
  refine ⟨alertN_eq_false_iff, fun s => ⟨rfl, ?_⟩,
    fun s a => ⟨_, _, rfl, getLsbD_setWidth_bit _ a, getLsbD_setWidth_bit _ a⟩,
    fun s => ⟨readResponse_notDone s, readResponse_done s⟩,
    fun s resetN csN f k n j => ⟨sdo_undriven s resetN csN f k, fun hf => sdo_unknown s f k (portFunction?_unknown f hf),
      fun hj hf => hf ▸ sdo_afterFunction s _ _ n j hj (sdoByte?_readResponse s n),
      fun hj hf => hf ▸ sdo_afterFunction s _ _ n j hj (sdoByte?_readStatus s n),
      fun hj hf => hf ▸ sdo_afterFunction s _ _ n j hj (sdoByte?_readAlarms s n)⟩,
    fun s bytes extra h => ⟨spiTransaction_noByte extra s h, spiTransaction_function .writeCommand bytes extra s h,
      spiTransaction_function .writeAlarmEnable bytes extra s h, spiTransaction_function .clearAlarms bytes extra s h,
      fun f hf => spiTransaction_noWrite f bytes extra s h hf⟩⟩
  rw [statusByte_toNat]
  cases s.port.mailbox <;> rfl

end Sys2Proof.Machine
end

section
/-! SUPPORT. What the shared operations over the tables leave as it was, field by field. -/

namespace Sys2Proof.Machine

set_option Elab.async false

/-! ### Slots -/

@[simp] theorem setSlotState_ticket (t : Tables) (n : Nat) (st : SlotState) :
    (t.setSlotState n st).ticket = t.ticket := by
  obtain ⟨_, h, _⟩ := setSlotState_eq t n st; rw [h]
@[simp] theorem setSlotState_mapEpoch (t : Tables) (n : Nat) (st : SlotState) :
    (t.setSlotState n st).mapEpoch = t.mapEpoch := by
  obtain ⟨_, h, _⟩ := setSlotState_eq t n st; rw [h]
@[simp] theorem setSlotState_reference (t : Tables) (n : Nat) (st : SlotState) :
    (t.setSlotState n st).reference = t.reference := by
  obtain ⟨_, h, _⟩ := setSlotState_eq t n st; rw [h]
@[simp] theorem setSlotState_alarms (t : Tables) (n : Nat) (st : SlotState) :
    (t.setSlotState n st).alarms = t.alarms := by
  obtain ⟨_, h, _⟩ := setSlotState_eq t n st; rw [h]
@[simp] theorem setSlotStates_leases (t : Tables) (ns : List Nat) (st : SlotState) :
    (t.setSlotStates ns st).leases = t.leases := by
  obtain ⟨_, h, _⟩ := setSlotStates_eq ns st t; rw [h]
@[simp] theorem setSlotStates_queue (t : Tables) (ns : List Nat) (st : SlotState) :
    (t.setSlotStates ns st).queue = t.queue := by
  obtain ⟨_, h, _⟩ := setSlotStates_eq ns st t; rw [h]
@[simp] theorem setSlotStates_ticket (t : Tables) (ns : List Nat) (st : SlotState) :
    (t.setSlotStates ns st).ticket = t.ticket := by
  obtain ⟨_, h, _⟩ := setSlotStates_eq ns st t; rw [h]
@[simp] theorem setSlotStates_stations (t : Tables) (ns : List Nat) (st : SlotState) :
    (t.setSlotStates ns st).stations = t.stations := by
  obtain ⟨_, h, _⟩ := setSlotStates_eq ns st t; rw [h]
@[simp] theorem setSlotStates_policy (t : Tables) (ns : List Nat) (st : SlotState) :
    (t.setSlotStates ns st).policy = t.policy := by
  obtain ⟨_, h, _⟩ := setSlotStates_eq ns st t; rw [h]
@[simp] theorem setSlotStates_mapEpoch (t : Tables) (ns : List Nat) (st : SlotState) :
    (t.setSlotStates ns st).mapEpoch = t.mapEpoch := by
  obtain ⟨_, h, _⟩ := setSlotStates_eq ns st t; rw [h]
@[simp] theorem setSlotStates_reference (t : Tables) (ns : List Nat) (st : SlotState) :
    (t.setSlotStates ns st).reference = t.reference := by
  obtain ⟨_, h, _⟩ := setSlotStates_eq ns st t; rw [h]
@[simp] theorem setSlotStates_alarms (t : Tables) (ns : List Nat) (st : SlotState) :
    (t.setSlotStates ns st).alarms = t.alarms := by
  obtain ⟨_, h, _⟩ := setSlotStates_eq ns st t; rw [h]
@[simp] theorem setSlotStates_length (t : Tables) (ns : List Nat) (st : SlotState) :
    (t.setSlotStates ns st).slots.length = t.slots.length := by
  obtain ⟨_, h, hl⟩ := setSlotStates_eq ns st t; rw [h]; exact hl

/-- A change of activity touches the slot map alone. -/
theorem setActivity_eq (t : Tables) (n : Nat) (f : Finding) :
    ∃ slots, t.setActivity n f = { t with slots := slots } ∧ slots.length = t.slots.length := by
  unfold Tables.setActivity
  split
  · exact ⟨t.slots, rfl, rfl⟩
  · exact ⟨_, rfl, by simp⟩

@[simp] theorem setActivity_leases (t : Tables) (n : Nat) (f : Finding) :
    (t.setActivity n f).leases = t.leases := by
  obtain ⟨_, h, _⟩ := setActivity_eq t n f; rw [h]
@[simp] theorem setActivity_queue (t : Tables) (n : Nat) (f : Finding) :
    (t.setActivity n f).queue = t.queue := by
  obtain ⟨_, h, _⟩ := setActivity_eq t n f; rw [h]
@[simp] theorem setActivity_ticket (t : Tables) (n : Nat) (f : Finding) :
    (t.setActivity n f).ticket = t.ticket := by
  obtain ⟨_, h, _⟩ := setActivity_eq t n f; rw [h]
@[simp] theorem setActivity_stations (t : Tables) (n : Nat) (f : Finding) :
    (t.setActivity n f).stations = t.stations := by
  obtain ⟨_, h, _⟩ := setActivity_eq t n f; rw [h]
@[simp] theorem setActivity_policy (t : Tables) (n : Nat) (f : Finding) :
    (t.setActivity n f).policy = t.policy := by
  obtain ⟨_, h, _⟩ := setActivity_eq t n f; rw [h]
@[simp] theorem setActivity_mapEpoch (t : Tables) (n : Nat) (f : Finding) :
    (t.setActivity n f).mapEpoch = t.mapEpoch := by
  obtain ⟨_, h, _⟩ := setActivity_eq t n f; rw [h]
@[simp] theorem setActivity_reference (t : Tables) (n : Nat) (f : Finding) :
    (t.setActivity n f).reference = t.reference := by
  obtain ⟨_, h, _⟩ := setActivity_eq t n f; rw [h]
@[simp] theorem setActivity_alarms (t : Tables) (n : Nat) (f : Finding) :
    (t.setActivity n f).alarms = t.alarms := by
  obtain ⟨_, h, _⟩ := setActivity_eq t n f; rw [h]
@[simp] theorem setActivity_length (t : Tables) (n : Nat) (f : Finding) :
    (t.setActivity n f).slots.length = t.slots.length := by
  obtain ⟨_, h, hl⟩ := setActivity_eq t n f; rw [h]; exact hl

/-- Several slot records written touch the slot map alone. -/
theorem setSlots_eq (ns : List Nat) (v : Slot) (t : Tables) :
    ∃ slots, t.setSlots ns v = { t with slots := slots } ∧ slots.length = t.slots.length := by
  unfold Tables.setSlots
  induction ns generalizing t with
  | nil => exact ⟨t.slots, rfl, rfl⟩
  | cons n ns ih =>
    obtain ⟨slots, h, hl⟩ := ih (t.setSlot n v)
    exact ⟨slots, by rw [List.foldl_cons, h]; rfl, by rw [hl, setSlot_length]⟩

@[simp] theorem setSlots_leases (t : Tables) (ns : List Nat) (v : Slot) :
    (t.setSlots ns v).leases = t.leases := by
  obtain ⟨_, h, _⟩ := setSlots_eq ns v t; rw [h]
@[simp] theorem setSlots_queue (t : Tables) (ns : List Nat) (v : Slot) :
    (t.setSlots ns v).queue = t.queue := by
  obtain ⟨_, h, _⟩ := setSlots_eq ns v t; rw [h]
@[simp] theorem setSlots_ticket (t : Tables) (ns : List Nat) (v : Slot) :
    (t.setSlots ns v).ticket = t.ticket := by
  obtain ⟨_, h, _⟩ := setSlots_eq ns v t; rw [h]
@[simp] theorem setSlots_stations (t : Tables) (ns : List Nat) (v : Slot) :
    (t.setSlots ns v).stations = t.stations := by
  obtain ⟨_, h, _⟩ := setSlots_eq ns v t; rw [h]
@[simp] theorem setSlots_policy (t : Tables) (ns : List Nat) (v : Slot) :
    (t.setSlots ns v).policy = t.policy := by
  obtain ⟨_, h, _⟩ := setSlots_eq ns v t; rw [h]
@[simp] theorem setSlots_mapEpoch (t : Tables) (ns : List Nat) (v : Slot) :
    (t.setSlots ns v).mapEpoch = t.mapEpoch := by
  obtain ⟨_, h, _⟩ := setSlots_eq ns v t; rw [h]
@[simp] theorem setSlots_reference (t : Tables) (ns : List Nat) (v : Slot) :
    (t.setSlots ns v).reference = t.reference := by
  obtain ⟨_, h, _⟩ := setSlots_eq ns v t; rw [h]
@[simp] theorem setSlots_alarms (t : Tables) (ns : List Nat) (v : Slot) :
    (t.setSlots ns v).alarms = t.alarms := by
  obtain ⟨_, h, _⟩ := setSlots_eq ns v t; rw [h]
@[simp] theorem setSlots_length (t : Tables) (ns : List Nat) (v : Slot) :
    (t.setSlots ns v).slots.length = t.slots.length := by
  obtain ⟨_, h, hl⟩ := setSlots_eq ns v t; rw [h]; exact hl


/-! ### Postings -/

@[simp] theorem post_mapEpoch (t : Tables) (a : Nat) (c : NoticeContent) : (t.post a c).mapEpoch = t.mapEpoch := by
  obtain ⟨-, -, -, -, -, h, -⟩ := post_frame t a c; exact h
@[simp] theorem post_reference (t : Tables) (a : Nat) (c : NoticeContent) : (t.post a c).reference = t.reference := by
  obtain ⟨-, -, -, -, -, -, h, -⟩ := post_frame t a c; exact h
@[simp] theorem post_length (t : Tables) (a : Nat) (c : NoticeContent) :
    (t.post a c).stations.length = t.stations.length := by
  obtain ⟨-, -, -, -, -, -, -, h⟩ := post_frame t a c; exact h

/-- What every posting leaves alone, a series of them leaves alone. -/
theorem postAll_keeps {α : Type} (g : Tables → α) (hg : ∀ (t : Tables) a c, g (t.post a c) = g t) (as : List Nat)
    (c : NoticeContent) (t : Tables) : g (t.postAll as c) = g t := by
  unfold Tables.postAll
  induction as generalizing t with
  | nil => rfl
  | cons a as ih => rw [List.foldl_cons, ih, hg]

@[simp] theorem postAll_slots (t : Tables) (as : List Nat) (c : NoticeContent) : (t.postAll as c).slots = t.slots :=
  postAll_keeps Tables.slots post_slots as c t
@[simp] theorem postAll_leases (t : Tables) (as : List Nat) (c : NoticeContent) : (t.postAll as c).leases = t.leases :=
  postAll_keeps Tables.leases post_leases as c t
@[simp] theorem postAll_queue (t : Tables) (as : List Nat) (c : NoticeContent) : (t.postAll as c).queue = t.queue :=
  postAll_keeps Tables.queue post_queue as c t
@[simp] theorem postAll_ticket (t : Tables) (as : List Nat) (c : NoticeContent) : (t.postAll as c).ticket = t.ticket :=
  postAll_keeps Tables.ticket post_ticket as c t
@[simp] theorem postAll_policy (t : Tables) (as : List Nat) (c : NoticeContent) : (t.postAll as c).policy = t.policy :=
  postAll_keeps Tables.policy post_policy as c t
@[simp] theorem postAll_mapEpoch (t : Tables) (as : List Nat) (c : NoticeContent) : (t.postAll as c).mapEpoch = t.mapEpoch :=
  postAll_keeps Tables.mapEpoch post_mapEpoch as c t
@[simp] theorem postAll_reference (t : Tables) (as : List Nat) (c : NoticeContent) : (t.postAll as c).reference = t.reference :=
  postAll_keeps Tables.reference post_reference as c t
@[simp] theorem postAll_length (t : Tables) (as : List Nat) (c : NoticeContent) :
    (t.postAll as c).stations.length = t.stations.length :=
  postAll_keeps (fun t => t.stations.length) post_length as c t

/-! ### Grants and retirements -/

/-- The first step of a retirement (R37): the entry freed, the slots cooling, the owner's counts lowered. -/
def Tables.vacate (t : Tables) (i : Nat) (l : Lease) : Tables :=
  ((t.freeEntry i).setSlotStates l.slots (.cooling t.policy.coolPeriods 0)).modifyStation l.owner
    (.dropLease l.slots.length)

theorem retire_eq (t : Tables) (i : Nat) (l : Lease) (reason : RetireReason) (tell : Bool) :
    t.retire i l reason tell =
      if tell then ((t.vacate i l).postAll l.listeners (.ended (t.handle i) reason)).post l.owner (.ended (t.handle i) reason)
      else (t.vacate i l).postAll l.listeners (.ended (t.handle i) reason) := rfl

/-- What every posting leaves alone, a retirement leaves as its first step made it. -/
theorem retire_keeps {α : Type} (g : Tables → α) (hg : ∀ (t : Tables) a c, g (t.post a c) = g t) (t : Tables) (i : Nat)
    (l : Lease) (reason : RetireReason) (tell : Bool) : g (t.retire i l reason tell) = g (t.vacate i l) := by
  rw [retire_eq]
  cases tell <;> simp [hg, postAll_keeps g hg]

@[simp] theorem createLease_queue (t : Tables) (i : Nat) (l : Lease) : (t.createLease i l).queue = t.queue := by
  simp [Tables.createLease]
@[simp] theorem createLease_ticket (t : Tables) (i : Nat) (l : Lease) : (t.createLease i l).ticket = t.ticket := by
  simp [Tables.createLease]
@[simp] theorem createLease_policy (t : Tables) (i : Nat) (l : Lease) : (t.createLease i l).policy = t.policy := by
  simp [Tables.createLease]
@[simp] theorem createLease_mapEpoch (t : Tables) (i : Nat) (l : Lease) : (t.createLease i l).mapEpoch = t.mapEpoch := by
  simp [Tables.createLease]
@[simp] theorem createLease_reference (t : Tables) (i : Nat) (l : Lease) : (t.createLease i l).reference = t.reference := by
  simp [Tables.createLease]
@[simp] theorem createLease_alarms (t : Tables) (i : Nat) (l : Lease) : (t.createLease i l).alarms = t.alarms := by
  simp [Tables.createLease]
@[simp] theorem vacate_queue (t : Tables) (i : Nat) (l : Lease) : (t.vacate i l).queue = t.queue := by
  simp [Tables.vacate]
@[simp] theorem vacate_ticket (t : Tables) (i : Nat) (l : Lease) : (t.vacate i l).ticket = t.ticket := by
  simp [Tables.vacate]
@[simp] theorem vacate_policy (t : Tables) (i : Nat) (l : Lease) : (t.vacate i l).policy = t.policy := by
  simp [Tables.vacate]
@[simp] theorem vacate_mapEpoch (t : Tables) (i : Nat) (l : Lease) : (t.vacate i l).mapEpoch = t.mapEpoch := by
  simp [Tables.vacate]
@[simp] theorem vacate_reference (t : Tables) (i : Nat) (l : Lease) : (t.vacate i l).reference = t.reference := by
  simp [Tables.vacate]
@[simp] theorem vacate_alarms (t : Tables) (i : Nat) (l : Lease) : (t.vacate i l).alarms = t.alarms := by
  simp [Tables.vacate]
@[simp] theorem retire_queue (t : Tables) (i : Nat) (l : Lease) (r : RetireReason) (tell : Bool) :
    (t.retire i l r tell).queue = t.queue := by
  rw [retire_keeps Tables.queue post_queue, vacate_queue]
@[simp] theorem retire_ticket (t : Tables) (i : Nat) (l : Lease) (r : RetireReason) (tell : Bool) :
    (t.retire i l r tell).ticket = t.ticket := by
  rw [retire_keeps Tables.ticket post_ticket, vacate_ticket]
@[simp] theorem retire_policy (t : Tables) (i : Nat) (l : Lease) (r : RetireReason) (tell : Bool) :
    (t.retire i l r tell).policy = t.policy := by
  rw [retire_keeps Tables.policy post_policy, vacate_policy]
@[simp] theorem retire_mapEpoch (t : Tables) (i : Nat) (l : Lease) (r : RetireReason) (tell : Bool) :
    (t.retire i l r tell).mapEpoch = t.mapEpoch := by
  rw [retire_keeps Tables.mapEpoch post_mapEpoch, vacate_mapEpoch]
@[simp] theorem retire_reference (t : Tables) (i : Nat) (l : Lease) (r : RetireReason) (tell : Bool) :
    (t.retire i l r tell).reference = t.reference := by
  rw [retire_keeps Tables.reference post_reference, vacate_reference]
@[simp] theorem createLease_leases (t : Tables) (i : Nat) (l : Lease) :
    (t.createLease i l).leases = (t.setLease i l).leases := by
  simp [Tables.createLease]
@[simp] theorem createLease_slots (t : Tables) (i : Nat) (l : Lease) :
    (t.createLease i l).slots = ((t.setLease i l).setSlotStates l.slots (.leased i)).slots := by
  simp [Tables.createLease]
theorem createLease_station? (t : Tables) (i a : Nat) (l : Lease) : (t.createLease i l).station? a =
    if a = l.owner then (t.station? l.owner).map (.addLease l.slots.length) else t.station? a := by
  unfold Tables.createLease
  rw [modifyStation_station?]
  simp [Tables.station?]
@[simp] theorem createLease_length (t : Tables) (i : Nat) (l : Lease) :
    (t.createLease i l).stations.length = t.stations.length := by
  simp [Tables.createLease]
@[simp] theorem vacate_leases (t : Tables) (i : Nat) (l : Lease) :
    (t.vacate i l).leases = (t.freeEntry i).leases := by
  simp [Tables.vacate]
@[simp] theorem vacate_slots (t : Tables) (i : Nat) (l : Lease) :
    (t.vacate i l).slots = ((t.freeEntry i).setSlotStates l.slots (.cooling t.policy.coolPeriods 0)).slots := by
  simp [Tables.vacate]
theorem vacate_station? (t : Tables) (i a : Nat) (l : Lease) : (t.vacate i l).station? a =
    if a = l.owner then (t.station? l.owner).map (.dropLease l.slots.length) else t.station? a := by
  unfold Tables.vacate
  rw [modifyStation_station?]
  simp [Tables.station?]
@[simp] theorem vacate_length (t : Tables) (i : Nat) (l : Lease) :
    (t.vacate i l).stations.length = t.stations.length := by
  simp [Tables.vacate]
@[simp] theorem retire_leases (t : Tables) (i : Nat) (l : Lease) (r : RetireReason) (tell : Bool) :
    (t.retire i l r tell).leases = (t.freeEntry i).leases := by
  rw [retire_keeps Tables.leases post_leases, vacate_leases]
@[simp] theorem enterEnding_queue (t : Tables) (i : Nat) (l : Lease) (r : EndReason) :
    (t.enterEnding i l r).queue = t.queue := by
  simp [Tables.enterEnding]

/-! ### Policy values -/

/-- SET_POLICY of an id other than 1 stores the value, and a LINGER_LIMIT acts at once. -/
theorem setPolicy_tables (t : Tables) (id v : Nat) (h : id ≠ 1) : (t.setPolicy id v).tables =
    if id = 15 then ({ t with policy := t.policy.store v id } : Tables).applyLingerLimit v
    else { t with policy := t.policy.store v id } := by
  simp [Tables.setPolicy, h]

@[simp] theorem applyLingerLimit_leases (t : Tables) (limit : Nat) :
    (t.applyLingerLimit limit).leases = t.leases := by
  unfold Tables.applyLingerLimit; split <;> rfl
@[simp] theorem applyLingerLimit_queue (t : Tables) (limit : Nat) :
    (t.applyLingerLimit limit).queue = t.queue := by
  unfold Tables.applyLingerLimit; split <;> rfl
@[simp] theorem applyLingerLimit_ticket (t : Tables) (limit : Nat) :
    (t.applyLingerLimit limit).ticket = t.ticket := by
  unfold Tables.applyLingerLimit; split <;> rfl
@[simp] theorem applyLingerLimit_stations (t : Tables) (limit : Nat) :
    (t.applyLingerLimit limit).stations = t.stations := by
  unfold Tables.applyLingerLimit; split <;> rfl
@[simp] theorem applyLingerLimit_policy (t : Tables) (limit : Nat) :
    (t.applyLingerLimit limit).policy = t.policy := by
  unfold Tables.applyLingerLimit; split <;> rfl
@[simp] theorem applyLingerLimit_mapEpoch (t : Tables) (limit : Nat) :
    (t.applyLingerLimit limit).mapEpoch = t.mapEpoch := by
  unfold Tables.applyLingerLimit; split <;> rfl
@[simp] theorem applyLingerLimit_reference (t : Tables) (limit : Nat) :
    (t.applyLingerLimit limit).reference = t.reference := by
  unfold Tables.applyLingerLimit; split <;> rfl
@[simp] theorem applyLingerLimit_slots (t : Tables) (limit : Nat) :
    (t.applyLingerLimit limit).slots = t.slots.map (Slot.barLingering limit) := by
  unfold Tables.applyLingerLimit; split <;> rfl

end Sys2Proof.Machine
end

section
/-! SUPPORT. What the operations over the tables are made of: the moves, each a change of one kind of record with what it
takes for granted, and every operation as a chain of them. An invariant is then kept by every operation when it is kept by
every move. -/

namespace Sys2Proof.Machine

set_option Elab.async false

/-! ### What a move may do to one record -/

/-- The change of a station's entry leaves its counts alone and its notices numbered. -/
def Station.keeps (st st' : Station) : Prop :=
  st'.held = st.held ∧ st'.leaseCount = st.leaseCount ∧ st'.queued = st.queued ∧
    (st.noticesNumbered → st'.noticesNumbered)

/-- What `Tables.leasesSound` says of one lease. -/
def Lease.sound (l : Lease) : Prop :=
  (l.pinned = true → l.phase = .active) ∧
    ∀ reason deadline notice, l.phase = .ending reason deadline notice → 1 ≤ deadline ∧ deadline ≤ 15

/-- What `Tables.namesPresent` says of the listeners of one lease. -/
def Tables.listenersOk (t : Tables) (l : Lease) : Prop :=
  l.listeners.length ≤ 4 ∧ l.listeners.Nodup ∧ l.owner ∉ l.listeners ∧ ∀ a ∈ l.listeners, (t.station? a).isSome

/-- What `Tables.coolingBounded` says of one slot state. -/
def SlotState.coolBounded (limit : Nat) (st : SlotState) : Prop :=
  ∀ cool linger, st = .cooling cool linger → 1 ≤ cool ∧ cool ≤ 15 ∧ linger < limit

/-- The slot is in no lease. -/
def SlotState.vacant (st : SlotState) : Prop := ∀ i, st ≠ .leased i

/-- The same request: a pending entry but for its wait, its pass-over count and its anchor. -/
def PendingEntry.sameRequest (e e' : PendingEntry) : Prop :=
  e'.ticket = e.ticket ∧ e'.station = e.station ∧ e'.count = e.count ∧ e'.priority = e.priority

/-- A grant of these slots to this owner in this entry is in order. -/
structure Tables.CanGrant (t : Tables) (i owner : Nat) (slots : List Nat) : Prop where
  index : t.freeIndex? = some i
  ascending : slots.Pairwise (· < ·)
  inArea : ∀ n ∈ slots, 1 ≤ n ∧ n ≤ t.policy.streamArea
  free : ∀ n ∈ slots, t.isFree n = true
  count : t.queueOrdered → 1 ≤ slots.length ∧ slots.length ≤ 8
  owner : owner = Config.house ∨ (t.station? owner).isSome

/-- A lease may be changed so: its slots stay, and its owner too but for a lease of the station `x`, which the house may
take over. -/
structure Tables.CanRelet (t : Tables) (x : Nat) (l l' : Lease) : Prop where
  slots : l'.slots = l.slots
  owner : l'.owner = l.owner ∨ (l.owner = x ∧ l'.owner = Config.house)
  listeners : t.stations.length = 30 → t.listenersOk l → t.listenersOk l'
  sound : t.policy.inRange → l.sound → l'.sound

/-- One move of the tables while station `x` is being removed, 0 when none is; `N` says that the queue was in order when the
operation began, without which a refusal need not find its entry. -/
inductive Tables.Move (N : Prop) (x : Nat) : Tables → Tables → Prop
  | raise (t : Tables) (a : Alarm) : Move N x t (t.raise a)
  | station (t : Tables) (a : Nat) (st st' : Station) (h : t.station? a = some st) (hk : st.keeps st') :
    Move N x t (t.setStation a (some st'))
  | tick (t : Tables) : Move N x t { t with stations := t.stations.map (Option.map Station.tickMs) }
  | join (t : Tables) (a : Nat) (tag : BitVec 32) (seq : BitVec 4) (h : t.station? a = none) :
    Move N x t (t.firstJoin a tag seq)
  | create (t : Tables) (i owner : Nat) (slots : List Nat) (term : Option Nat) (idle : Nat) (pinned : Bool)
    (h : t.CanGrant i owner slots) : Move N x t (t.createLease i (.fresh owner slots term idle pinned))
  | vacate (t : Tables) (i : Nat) (l : Lease) (h : t.lease? i = some l) : Move N x t (t.vacate i l)
  | relet (t : Tables) (i : Nat) (l l' : Lease) (h : t.lease? i = some l) (hl : t.CanRelet x l l') :
    Move N x t (t.setLease i l')
  | mapLeases (t : Tables) (f : Lease → Lease) (hslots : ∀ l, (f l).slots = l.slots) (howner : ∀ l, (f l).owner = l.owner)
    (hlisteners : ∀ l, (f l).listeners.Sublist l.listeners) (hsound : ∀ l : Lease, l.sound → (f l).sound) :
    Move N x t (t.mapLeases f)
  | slotState (t : Tables) (n : Nat) (st st' : SlotState) (h : t.slotState? n = some st) (hv : st.vacant)
    (hv' : st'.vacant)
    (hc : t.policy.inRange → st.coolBounded t.policy.lingerLimit → st'.coolBounded t.policy.lingerLimit) :
    Move N x t (t.setSlotState n st')
  | activity (t : Tables) (n : Nat) (f : Finding) : Move N x t (t.setActivity n f)
  | unqueue (t : Tables) (e : PendingEntry) (q : List PendingEntry) (hs : q.Sublist t.queue)
    (hp : N → t.queue.Perm (e :: q)) :
    Move N x t ({ t with queue := q }.modifyStation e.station .dropQueued)
  | dropEntries (t : Tables) (a : Nat) : Move N x t (t.dropEntriesOf a)
  | requeue (t : Tables) (q : List PendingEntry) (h : List.Forall₂ PendingEntry.sameRequest t.queue q) :
    Move N x t { t with queue := q }
  | enqueue (t : Tables) (a : Nat) (g : GrantAsk) (st : Station) (h : t.station? a = some st)
    (hr : t.queueRoom st = true) (hg : 1 ≤ g.count ∧ g.count ≤ 8) : Move N x t (t.enqueue a g).1
  | policy (t : Tables) (id v : Nat) (hid : 2 ≤ id ∧ id ≤ 16) (hv : policyValueOk id v = true) :
    Move N x t (t.setPolicy id v).tables
  | shrink (t : Tables) (area : Nat) (h8 : 8 ≤ area) (h : area < t.policy.streamArea)
    (hs : ∀ n ∈ slotsBetween area t.policy.streamArea, (t.slot n).stopsShrink = false) :
    Move N x t ((t.setSlots (slotsBetween area t.policy.streamArea) .outside).setArea area)
  | grow (t : Tables) (area : Nat) (h : t.policy.streamArea < area) (h63 : area ≤ 63) :
    Move N x t ((t.setSlots (slotsBetween t.policy.streamArea area) (.inArea (.free false) .quiet)).setArea area)
  | settle (t : Tables) (epoch : BitVec 16) (image : MapImage) : Move N x t { t with mapEpoch := epoch, reference := image }

/-- Moves one after the other. -/
abbrev Tables.Chain (N : Prop) (x : Nat) : Tables → Tables → Prop := Relation.ReflTransGen (Tables.Move N x)

/-- No lease, listener list or pending entry names the address. -/
def Tables.namesNowhere (t : Tables) (a : Nat) : Prop :=
  (∀ i l, t.lease? i = some l → l.owner ≠ a ∧ a ∉ l.listeners) ∧ ∀ e ∈ t.queue, e.station ≠ a

/-- What an operation can make of the tables: moves, and removals of a station that nothing names any more. -/
inductive Tables.Reach (N : Prop) : Tables → Tables → Prop
  | chain {t u : Tables} (h : Chain N 0 t u) : Reach N t u
  | removal {t u v : Tables} (a : Nat) (h : Chain N a t u) (ha : t.sized → u.namesNowhere a)
    (hr : Reach N (u.setStation a none) v) : Reach N t v
  | trans {t u v : Tables} (h : Reach N t u) (h' : Reach N u v) : Reach N t v

/-! ### Chains -/

section
variable {N : Prop} {x : Nat}

theorem Tables.Move.chain {t u : Tables} (h : Tables.Move N x t u) : Tables.Chain N x t u := Relation.ReflTransGen.single h

theorem chain_foldl {α : Type} (f : Tables → α → Tables) (h : ∀ (t : Tables) n, Tables.Chain N x t (f t n)) (ns : List α) (t : Tables) :
    Tables.Chain N x t (ns.foldl f t) := by
  induction ns generalizing t with
  | nil => exact .refl
  | cons n ns ih => exact (h t n).trans (ih _)

/-! ### Notices and stations -/

/-- A full queue keeps its numbers and only records the loss. -/
theorem queueNotice_keeps (st : Station) (c : NoticeContent) (h : st.notices.length < Config.noticeMax) :
    st.keeps (st.queueNotice c) := by
  refine ⟨rfl, rfl, rfl, fun ⟨_, hn⟩ => ⟨by simpa [Station.queueNotice, Config.noticeMax] using h, fun k n hk => ?_⟩⟩
  simp only [Station.queueNotice, List.length_append, List.length_singleton] at hk ⊢
  rcases Nat.lt_trichotomy k st.notices.length with hlt | rfl | hgt
  · rw [List.getElem?_append_left hlt] at hk
    rw [← hn k n hk, show st.notices.length + 1 - k = st.notices.length - k + 1 by omega, BitVec.ofNat_add, BitVec.add_assoc]
    rfl
  · simp at hk
    simp [← hk]
  · rw [List.getElem?_eq_none (by simp; omega)] at hk
    cases hk

theorem post_chain (t : Tables) (a : Nat) (c : NoticeContent) : Tables.Chain N x t (t.post a c) := by
  unfold Tables.post
  cases h : t.station? a with
  | none => exact .refl
  | some st =>
    by_cases hl : st.notices.length < Config.noticeMax
    · simpa [hl] using Tables.Move.chain (.station t a st _ h (queueNotice_keeps st c hl))
    · have hs : Tables.Move N x t (t.setStation a (some { st with overflow := true })) := .station t a st _ h ⟨rfl, rfl, rfl, id⟩
      simpa [hl] using hs.chain.tail (.raise _ _)

theorem postAll_chain (t : Tables) (as : List Nat) (c : NoticeContent) : Tables.Chain N x t (t.postAll as c) :=
  chain_foldl _ (fun t a => post_chain t a c) as t

theorem modifyStation_chain (t : Tables) (a : Nat) (f : Station → Station) (hf : ∀ st : Station, st.keeps (f st)) :
    Tables.Chain N x t (t.modifyStation a f) := by
  cases h : t.station? a with
  | none => rw [modifyStation_none _ _ _ h]
  | some st => rw [modifyStation_some _ _ _ _ h]; exact .single (.station t a st _ h (hf st))

theorem alive_keeps (st : Station) : st.keeps st.alive := ⟨rfl, rfl, rfl, id⟩

theorem miss_keeps (limit silentLimit : Nat) (st : Station) : st.keeps (st.miss limit silentLimit) := by
  unfold Station.miss
  cases st.live <;> exact ⟨rfl, rfl, rfl, id⟩

/-- No notice is left, so none is out of number. -/
theorem rejoined_keeps (seq : BitVec 4) (st : Station) : st.keeps (st.rejoined seq) :=
  ⟨rfl, rfl, rfl, fun _ => ⟨by simp [Station.rejoined], by simp [Station.rejoined]⟩⟩

/-- Without its oldest notice the queue stays numbered. -/
theorem dropOldest_keeps (st : Station) (n : Notice) (rest : List Notice) (h : st.notices = n :: rest) :
    st.keeps { st with notices := rest } := by
  refine ⟨rfl, rfl, rfl, fun ⟨hl, hn⟩ => ⟨?_, fun k m hk => ?_⟩⟩
  · rw [h, List.length_cons] at hl; exact (Nat.le_succ _).trans hl
  · have := hn (k + 1) m (by rw [h]; simpa using hk)
    rw [h] at this
    simpa using this

/-! ### Leases -/

theorem lease?_range (t : Tables) (i : Nat) (l : Lease) (h : t.lease? i = some l) : 1 ≤ i ∧ i ≤ t.leases.length := by
  by_cases h0 : i = 0
  · simp [Tables.lease?, Tables.entry, nth?, h0] at h
  · refine ⟨by omega, ?_⟩
    by_contra hlt
    simp [Tables.lease?, Tables.entry, nth?, h0, show t.leases.length ≤ i - 1 by omega] at h

theorem validLease?_lease? (t : Tables) (h : Handle) (l : Lease) (hl : t.validLease? h = some l) :
    t.lease? h.index = some l := by
  unfold Tables.validLease? at hl
  split at hl
  · exact hl
  · cases hl

theorem retire_chain (t : Tables) (i : Nat) (l : Lease) (reason : RetireReason) (tell : Bool) (h : t.lease? i = some l) :
    Tables.Chain N x t (t.retire i l reason tell) := by
  have hv : Tables.Chain N x t ((t.vacate i l).postAll l.listeners (.ended (t.handle i) reason)) :=
    (Tables.Move.chain (.vacate t i l h)).trans (postAll_chain _ _ _)
  rw [retire_eq]
  cases tell with
  | false => exact hv
  | true => exact hv.trans (post_chain _ _ _)

/-- A change of a lease that leaves its slots, its owner and its listeners alone. -/
theorem relet_chain (t : Tables) (i : Nat) (l l' : Lease) (h : t.lease? i = some l) (hs : l'.slots = l.slots)
    (ho : l'.owner = l.owner) (hl : l'.listeners = l.listeners) (hsound : t.policy.inRange → l.sound → l'.sound) :
    Tables.Chain N x t (t.setLease i l') :=
  .single (.relet t i l l' h ⟨hs, .inl ho, fun _ => by simp [Tables.listenersOk, ho, hl], hsound⟩)

/-- The policy value of an id lies in its range. -/
theorem inRange_id (p : Policy) (hp : p.inRange) (id : Nat) (h : 1 ≤ id ∧ id ≤ 16) :
    (policyRange id).1 ≤ p.value id ∧ p.value id ≤ (policyRange id).2 :=
  hp id (List.mem_range'_1.mpr (by omega))

theorem inRange_coolPeriods (p : Policy) (hp : p.inRange) : 1 ≤ p.coolPeriods ∧ p.coolPeriods ≤ 15 :=
  inRange_id p hp 2 (by decide)

theorem inRange_endPeriods (p : Policy) (hp : p.inRange) : 1 ≤ p.endPeriods ∧ p.endPeriods ≤ 15 :=
  inRange_id p hp 3 (by decide)

theorem inRange_lingerLimit (p : Policy) (hp : p.inRange) : 1 ≤ p.lingerLimit ∧ p.lingerLimit ≤ 7 :=
  inRange_id p hp 15 (by decide)

theorem inRange_streamArea (p : Policy) (hp : p.inRange) : 8 ≤ p.streamArea ∧ p.streamArea ≤ 63 :=
  inRange_id p hp 1 (by decide)

/-- Entry to ENDING of an unpinned lease that stands for the one in the entry. -/
theorem enterEnding_chain (t : Tables) (i : Nat) (l l' : Lease) (reason : EndReason) (h : t.lease? i = some l)
    (hs : l'.slots = l.slots) (ho : l'.owner = l.owner) (hl : l'.listeners = l.listeners) (hp : l'.pinned = false) :
    Tables.Chain N x t (t.enterEnding i l' reason) :=
  (relet_chain t i l { l' with phase := .ending reason t.policy.endPeriods (t.noticeRoom l'.owner) } h hs ho hl
    fun hr _ => ⟨by simp [hp], by
      rintro _ _ _ ⟨⟩
      exact inRange_endPeriods _ hr⟩).trans (post_chain _ _ _)

theorem sound_of_active (l : Lease) (h : l.phase = .active) : l.sound := ⟨fun _ => h, by simp [h]⟩

theorem isEnding_eq_false_iff (l : Lease) : l.isEnding = false ↔ l.phase = .active := by
  unfold Lease.isEnding
  cases l.phase <;> simp

/-- A change that touches neither pin nor phase. -/
theorem sound_of_eq (l l' : Lease) (hp : l'.pinned = l.pinned) (hph : l'.phase = l.phase) (h : l.sound) : l'.sound := by
  simpa [Lease.sound, hp, hph] using h

end

end Sys2Proof.Machine
end

section
/-! SUPPORT. The pending queue: tickets, places by priority, and that every move keeps the queue in order (3.2). -/

namespace Sys2Proof.Machine

set_option Elab.async false

/-! ### Tickets -/

/-- The ticket some advances past one. -/
def ticketAfter (n k : Nat) : Nat := (n - 1 + k) % 255 + 1

theorem ticketAfter_zero (n : Nat) (h1 : 1 ≤ n) (h2 : n ≤ 255) : ticketAfter n 0 = n := by
  unfold ticketAfter; omega

theorem ticketAfter_range (n k : Nat) : 1 ≤ ticketAfter n k ∧ ticketAfter n k ≤ 255 := by
  unfold ticketAfter; omega

theorem nextTicket_range (n : Nat) : 1 ≤ nextTicket n ∧ nextTicket n ≤ 255 := by
  unfold nextTicket; split <;> omega

theorem ticketAfter_nextTicket (n k : Nat) (h1 : 1 ≤ n) (h2 : n ≤ 255) :
    ticketAfter (nextTicket n) k = ticketAfter n (k + 1) := by
  unfold ticketAfter nextTicket; split <;> omega

theorem nextTicket_ticketAfter (n k : Nat) : nextTicket (ticketAfter n k) = ticketAfter n (k + 1) := by
  unfold ticketAfter nextTicket; split <;> omega

/-- Fewer than 255 advances meet no ticket twice. -/
theorem ticketAfter_inj (n j k : Nat) (hj : j < 255) (hk : k < 255) (h : ticketAfter n j = ticketAfter n k) : j = k := by
  unfold ticketAfter at h; omega

/-- The advances are past tickets in use, and they end at the first that no entry bears or when they run out. -/
theorem freeTicket_advances (q : List PendingEntry) (fuel n : Nat) (h1 : 1 ≤ n) (h2 : n ≤ 255) :
    ∃ k ≤ fuel, freeTicket q fuel n = ticketAfter n k ∧ (∀ j < k, ∃ e ∈ q, e.ticket = ticketAfter n j) ∧
      (k < fuel → ∀ e ∈ q, e.ticket ≠ ticketAfter n k) := by
  induction fuel generalizing n with
  | zero => exact ⟨0, le_rfl, (ticketAfter_zero n h1 h2).symm, by simp, by simp⟩
  | succ fuel ih =>
    unfold freeTicket
    by_cases hq : ∃ e ∈ q, e.ticket = n
    · have hq' : (q.any fun e => e.ticket == n) = true := by simpa using hq
      obtain ⟨hn1, hn2⟩ := nextTicket_range n
      obtain ⟨k, hk, hfree, hused, hlast⟩ := ih (nextTicket n) hn1 hn2
      simp only [ticketAfter_nextTicket n _ h1 h2] at hfree hused hlast
      refine ⟨k + 1, by omega, by rw [if_pos hq', hfree], fun j hj => ?_, fun hlt => hlast (by omega)⟩
      cases j with
      | zero => rwa [ticketAfter_zero n h1 h2]
      | succ j => exact hused j (by omega)
    · have hq' : ¬ (q.any fun e => e.ticket == n) = true := by simpa using hq
      refine ⟨0, by omega, by rw [if_neg hq', ticketAfter_zero n h1 h2], by simp, fun _ e he => ?_⟩
      rw [ticketAfter_zero n h1 h2]
      exact fun hen => hq ⟨e, he, hen⟩

/-- A queue that bears fewer than 255 tickets leaves one free within as many advances as it has entries. -/
theorem freeTicket_fresh (q : List PendingEntry) (n : Nat) (h1 : 1 ≤ n) (h2 : n ≤ 255) (hq : q.length < 255) :
    ∀ e ∈ q, e.ticket ≠ freeTicket q q.length n := by
  obtain ⟨k, hk, hfree, hused, hlast⟩ := freeTicket_advances q q.length n h1 h2
  rcases Nat.lt_or_ge k q.length with hlt | hge
  · rw [hfree]; exact hlast hlt
  · obtain rfl : k = q.length := by omega
    rintro e he hbears
    have hsub : (List.range (q.length + 1)).map (ticketAfter n) ⊆ q.map PendingEntry.ticket := by
      intro m hm
      obtain ⟨j, hj, rfl⟩ := List.mem_map.mp hm
      rcases Nat.lt_succ_iff_lt_or_eq.mp (List.mem_range.mp hj) with hj | rfl
      · obtain ⟨e', he', ht⟩ := hused j hj
        exact List.mem_map.mpr ⟨e', he', ht⟩
      · exact List.mem_map.mpr ⟨e, he, hbears.trans hfree⟩
    have hnd : ((List.range (q.length + 1)).map (ticketAfter n)).Nodup :=
      List.Nodup.map_on (fun j hj k hk h => ticketAfter_inj n j k
        (by have := List.mem_range.mp hj; omega) (by have := List.mem_range.mp hk; omega) h) List.nodup_range
    simpa using (hnd.subperm hsub).length_le

theorem freeTicket_range (q : List PendingEntry) (fuel n : Nat) (h1 : 1 ≤ n) (h2 : n ≤ 255) :
    1 ≤ freeTicket q fuel n ∧ freeTicket q fuel n ≤ 255 := by
  obtain ⟨k, -, hfree, -⟩ := freeTicket_advances q fuel n h1 h2
  rw [hfree]; exact ticketAfter_range n k

/-! ### Places by priority -/

theorem insertByPriority_perm (e : PendingEntry) (q : List PendingEntry) : (insertByPriority e q).Perm (e :: q) := by
  unfold insertByPriority
  refine List.perm_middle.trans ?_
  rw [List.takeWhile_append_dropWhile]

theorem takeWhile_priority (q : List PendingEntry) (p : Nat) :
    ∀ x ∈ q.takeWhile (fun x => decide (p ≤ x.priority)), p ≤ x.priority :=
  fun _ hx => by simpa using List.mem_takeWhile_imp hx

/-- In a queue in priority order everything after the first entry of lower priority is of lower priority. -/
theorem dropWhile_priority (q : List PendingEntry) (p : Nat) (hq : q.Pairwise fun x y => y.priority ≤ x.priority) :
    ∀ x ∈ q.dropWhile (fun x => decide (p ≤ x.priority)), x.priority < p := by
  induction q with
  | nil => simp
  | cons y q ih =>
    obtain ⟨hy, hq⟩ := List.pairwise_cons.mp hq
    by_cases hp : p ≤ y.priority
    · rw [List.dropWhile_cons_of_pos (by simpa using hp)]; exact ih hq
    · rw [List.dropWhile_cons_of_neg (by simpa using hp)]
      intro x hx
      rcases List.mem_cons.mp hx with rfl | hx
      · omega
      · have := hy x hx; omega

theorem insertByPriority_ordered (e : PendingEntry) (q : List PendingEntry)
    (hq : q.Pairwise fun x y => y.priority ≤ x.priority) :
    (insertByPriority e q).Pairwise fun x y => y.priority ≤ x.priority := by
  have hfront := takeWhile_priority q e.priority
  have hback := dropWhile_priority q e.priority hq
  unfold insertByPriority
  refine List.pairwise_append.mpr ⟨hq.sublist (List.takeWhile_sublist _), List.pairwise_cons.mpr
    ⟨fun x hx => (hback x hx).le, hq.sublist (List.dropWhile_sublist _)⟩, fun x hx y hy => ?_⟩
  rcases List.mem_cons.mp hy with rfl | hy
  · exact hfront x hx
  · exact (hback y hy).le.trans (hfront x hx)

/-! ### A new entry -/

/-- The entry a request makes (R55). -/
def Tables.newEntry (t : Tables) (a : Nat) (g : GrantAsk) : PendingEntry :=
  ⟨freeTicket t.queue t.queue.length t.ticket, a, g.count, g.contiguous, g.priority, t.policy.clip g.term, g.idleLimit,
    t.policy.queueWait, 0, false⟩

theorem enqueue_eq (t : Tables) (a : Nat) (g : GrantAsk) :
    t.enqueue a g = (({ t with
      queue := insertByPriority (t.newEntry a g) t.queue
      ticket := nextTicket (t.newEntry a g).ticket } : Tables).modifyStation a
        (fun st => { st with queued := st.queued + 1 }), (t.newEntry a g).ticket) := rfl

theorem queueRoom_iff (t : Tables) (st : Station) : t.queueRoom st = true ↔ t.queue.length < 16 ∧ st.queued < 2 := by
  rw [Tables.queueRoom, Bool.and_eq_true, decide_eq_true_iff, decide_eq_true_iff]; rfl

/-! ### Order kept -/

/-- Entries taken out leave the others in order. -/
theorem queueOrdered_sublist (t : Tables) (q : List PendingEntry) (hs : q.Sublist t.queue) (h : t.queueOrdered) :
    ({ t with queue := q } : Tables).queueOrdered := by
  obtain ⟨hlen, hnd, hfields, hprio, hticket⟩ := h
  exact ⟨hs.length_le.trans hlen, hnd.sublist (hs.map _), fun e he => hfields e (hs.subset he), hprio.sublist hs, hticket⟩

theorem sameRequest_map {α : Type} (g : PendingEntry → α) (hg : ∀ e e' : PendingEntry, e.sameRequest e' → g e' = g e)
    {q q' : List PendingEntry} (h : List.Forall₂ PendingEntry.sameRequest q q') : q'.map g = q.map g := by
  induction h with
  | nil => rfl
  | cons he _ ih => rw [List.map_cons, List.map_cons, ih, hg _ _ he]

theorem queueOrdered_sameRequest (t : Tables) (q : List PendingEntry) (hq : List.Forall₂ PendingEntry.sameRequest t.queue q)
    (h : t.queueOrdered) : ({ t with queue := q } : Tables).queueOrdered := by
  obtain ⟨hlen, hnd, hfields, hprio, hticket⟩ := h
  have hmap := fun {α : Type} (g : PendingEntry → α) hg => sameRequest_map g hg hq
  refine ⟨hq.length_eq ▸ hlen, ?_, fun e he => ?_, ?_, hticket⟩
  · show (q.map PendingEntry.ticket).Nodup
    rwa [hmap PendingEntry.ticket fun _ _ h => h.1]
  · have hg : (e.ticket, e.count) ∈ t.queue.map fun e => (e.ticket, e.count) := by
      rw [← hmap (fun e => (e.ticket, e.count)) fun _ _ ⟨h1, _, h2, _⟩ => by rw [h1, h2]]
      exact List.mem_map.mpr ⟨e, he, rfl⟩
    obtain ⟨e', he', heq⟩ := List.mem_map.mp hg
    obtain ⟨h1, h2⟩ := Prod.mk.inj heq
    exact h1 ▸ h2 ▸ hfields e' he'
  · have hp : (q.map PendingEntry.priority).Pairwise fun x y => y ≤ x := by
      rw [hmap PendingEntry.priority fun _ _ h => h.2.2.2]
      exact List.pairwise_map.mpr hprio
    exact List.pairwise_map.mp hp

theorem queueOrdered_enqueue (t : Tables) (a : Nat) (g : GrantAsk) (hlen : t.queue.length < 16)
    (hg : 1 ≤ g.count ∧ g.count ≤ 8) (h : t.queueOrdered) : (t.enqueue a g).1.queueOrdered := by
  obtain ⟨-, hnd, hfields, hprio, ht1, ht2⟩ := h
  have hperm := insertByPriority_perm (t.newEntry a g) t.queue
  have hrange := freeTicket_range t.queue t.queue.length t.ticket ht1 ht2
  rw [enqueue_eq]
  simp only [Tables.queueOrdered, modifyStation_queue, modifyStation_ticket]
  refine ⟨by rw [hperm.length_eq]; simpa using hlen, (hperm.map _).nodup_iff.mpr ?_, fun e he => ?_,
    insertByPriority_ordered _ _ hprio, nextTicket_range _⟩
  · rw [List.map_cons, List.nodup_cons]
    refine ⟨fun hm => ?_, hnd⟩
    obtain ⟨e, he, heq⟩ := List.mem_map.mp hm
    exact freeTicket_fresh t.queue t.ticket ht1 ht2 (by omega) e he heq
  · rcases List.mem_cons.mp (hperm.subset he) with rfl | he
    · exact ⟨hrange.1, hrange.2, hg⟩
    · exact hfields e he

/-- The order of the queue rests on the queue and the counter alone. -/
theorem queueOrdered_of_eq {t u : Tables} (hq : u.queue = t.queue) (ht : u.ticket = t.ticket) (h : t.queueOrdered) :
    u.queueOrdered := by
  simpa [Tables.queueOrdered, hq, ht] using h

/-- Every move keeps the queue in order. -/
theorem move_queueOrdered {N : Prop} {x : Nat} {t u : Tables} (hm : Tables.Move N x t u) (h : t.queueOrdered) :
    u.queueOrdered := by
  cases hm with
  | unqueue e q hs _ => exact queueOrdered_of_eq (by simp) (by simp) (queueOrdered_sublist t q hs h)
  | dropEntries a =>
    exact queueOrdered_of_eq (by simp [Tables.dropEntriesOf]) (by simp [Tables.dropEntriesOf])
      (queueOrdered_sublist t (t.queue.filter fun e => e.station != a) List.filter_sublist h)
  | requeue q hq => exact queueOrdered_sameRequest t q hq h
  | enqueue a g st _ hr hg => exact queueOrdered_enqueue t a g ((queueRoom_iff t st).mp hr).1 hg h
  | policy id v hid _ =>
    rw [setPolicy_tables t id v (by omega)]
    split
    · exact queueOrdered_of_eq (by simp) (by simp) h
    · exact h
  | raise | station | tick | join | create | vacate | relet | mapLeases | slotState | activity | shrink | grow | settle =>
    refine queueOrdered_of_eq ?_ ?_ h <;> simp [Tables.firstJoin, Tables.mapLeases, Tables.setArea]

theorem chain_queueOrdered {N : Prop} {x : Nat} {t u : Tables} (hc : Tables.Chain N x t u) (h : t.queueOrdered) :
    u.queueOrdered := by
  induction hc with
  | refl => exact h
  | tail _ hm ih => exact move_queueOrdered hm ih

end Sys2Proof.Machine
end

section
/-! SUPPORT. Every operation over the tables as a chain of moves: the queue, the stations, the close, the commands and the
requests. -/

namespace Sys2Proof.Machine

set_option Elab.async false

variable {N : Prop} {x : Nat}

/-! ### Grants -/

/-- The allocation choice takes as many candidates as were asked for, in ascending order. -/
theorem choice_spec (t : Tables) (count : Nat) (contiguous : Bool) (ns : List Nat)
    (h : t.choice count contiguous = some ns) :
    ns.length = count ∧ ns.Pairwise (· < ·) ∧ ∀ n ∈ ns, t.isCandidate n = true := by
  cases contiguous with
  | false =>
    obtain ⟨hlen, hasc, hcand, -⟩ := choice_scattered_lowest t count ns h
    exact ⟨hlen, hasc, hcand⟩
  | true =>
    rw [choice_contiguous, Tables.lowestRun, Option.map_eq_some_iff] at h
    obtain ⟨k, hk, rfl⟩ := h
    exact ⟨List.length_range', List.pairwise_lt_range', by simpa using List.find?_some hk⟩

theorem fits_eq_some (t : Tables) (count : Nat) (contiguous : Bool) (slots : List Nat) (i : Nat) :
    t.fits count contiguous = some (slots, i) ↔ t.choice count contiguous = some slots ∧ t.freeIndex? = some i := by
  unfold Tables.fits
  cases t.choice count contiguous <;> cases t.freeIndex? <;> simp

/-- A request that fits may be granted. -/
theorem canGrant_of_fits (t : Tables) (owner count : Nat) (contiguous : Bool) (slots : List Nat) (i : Nat)
    (h : t.fits count contiguous = some (slots, i)) (hc : t.queueOrdered → 1 ≤ count ∧ count ≤ 8)
    (ho : owner = Config.house ∨ (t.station? owner).isSome) : t.CanGrant i owner slots := by
  obtain ⟨hch, hi⟩ := (fits_eq_some t count contiguous slots i).mp h
  obtain ⟨hlen, hasc, hcand⟩ := choice_spec t count contiguous slots hch
  have hcand' := fun n hn => (isCandidate_iff t n).mp (hcand n hn)
  exact ⟨hi, hasc, fun n hn => ⟨(hcand' n hn).1, (hcand' n hn).2.1⟩,
    fun n hn => by simp [Tables.isFree, (hcand' n hn).2.2], fun hq => hlen ▸ hc hq, ho⟩

/-! ### The queue beside the other records -/

theorem setSlotStates_withQueue (t : Tables) (ns : List Nat) (st : SlotState) (q : List PendingEntry) :
    ({ t with queue := q } : Tables).setSlotStates ns st = { t.setSlotStates ns st with queue := q } := by
  unfold Tables.setSlotStates
  induction ns generalizing t with
  | nil => rfl
  | cons n ns ih =>
    have h : ({ t with queue := q } : Tables).setSlotState n st = { t.setSlotState n st with queue := q } := by
      unfold Tables.setSlotState
      show (match t.slot n with | .outside => _ | .inArea _ last => _) = _
      cases t.slot n <;> rfl
    rw [List.foldl_cons, List.foldl_cons, h, ih]

theorem modifyStation_withQueue (t : Tables) (a : Nat) (f : Station → Station) (q : List PendingEntry) :
    ({ t with queue := q } : Tables).modifyStation a f = { t.modifyStation a f with queue := q } := by
  unfold Tables.modifyStation
  show (match t.station? a with | none => _ | some st => _) = _
  cases t.station? a <;> rfl

theorem post_withQueue (t : Tables) (a : Nat) (c : NoticeContent) (q : List PendingEntry) :
    ({ t with queue := q } : Tables).post a c = { t.post a c with queue := q } := by
  unfold Tables.post
  show (match t.station? a with | none => _ | some st => _) = _
  cases t.station? a with
  | none => rfl
  | some st => dsimp only; split <;> rfl

theorem post_withQueue_chain (t : Tables) (a : Nat) (c : NoticeContent) (q : List PendingEntry) :
    Tables.Chain N x { t with queue := q } { t.post a c with queue := q } :=
  post_withQueue t a c q ▸ post_chain _ _ _

theorem createLease_withQueue (t : Tables) (i : Nat) (l : Lease) (q : List PendingEntry) :
    ({ t with queue := q } : Tables).createLease i l = { t.createLease i l with queue := q } := by
  unfold Tables.createLease
  rw [show ({ t with queue := q } : Tables).setLease i l = { t.setLease i l with queue := q } from rfl,
    setSlotStates_withQueue, modifyStation_withQueue]

/-! ### The queue pass (3.3) -/

/-- The entry leaves the queue. -/
def Fate.leaves : Fate → Bool
  | .granted => true
  | .removed => true
  | .stayed => false
  | .unvisited => false

/-- The entries of a walk that stay in the queue. -/
def passLeft (fates : List (PendingEntry × Fate)) : List PendingEntry :=
  (fates.filter fun p => !p.2.leaves).map Prod.fst

theorem passLeft_cons (e : PendingEntry) (fate : Fate) (rest : List (PendingEntry × Fate)) :
    passLeft ((e, fate) :: rest) = if fate.leaves then passLeft rest else e :: passLeft rest := by
  cases fate <;> rfl

theorem passLeft_unvisited (es : List PendingEntry) : passLeft (es.map fun y => (y, Fate.unvisited)) = es := by
  induction es with
  | nil => rfl
  | cons e es ih => rw [List.map_cons, passLeft_cons, ih]; rfl

/-- The station of an entry over its quota, or absent. -/
def Tables.overQuota (t : Tables) (e : PendingEntry) : Bool :=
  match t.station? e.station with
  | none => true
  | some st => st.quota < st.held + e.count

theorem present_of_overQuota (t : Tables) (e : PendingEntry) (h : t.overQuota e = false) :
    (t.station? e.station).isSome = true := by
  unfold Tables.overQuota at h
  split at h
  · cases h
  · simp [*]

/-- What a visit does: a removal, a grant, or nothing. -/
theorem visit_cases (t : Tables) (e : PendingEntry) :
    (t.overQuota e = true ∧ t.visit e =
      ((t.modifyStation e.station .dropQueued).post e.station (.refused e.ticket .quota), .removed)) ∨
    (t.overQuota e = false ∧ t.fits e.count e.contiguous = none ∧ t.visit e = (t, .stayed)) ∨
    ∃ slots i, t.overQuota e = false ∧ t.fits e.count e.contiguous = some (slots, i) ∧ t.visit e =
      (((t.createLease i (.fresh e.station slots (t.policy.clip (e.term.getD 0)) e.idleLimit false)).modifyStation
        e.station .dropQueued).post e.station
          (.granted e.ticket (t.handle i) slots (t.policy.clip (e.term.getD 0))), .granted) := by
  have hv : t.visit e = if t.overQuota e then
      ((t.modifyStation e.station .dropQueued).post e.station (.refused e.ticket .quota), .removed)
    else match t.fits e.count e.contiguous with
      | none => (t, .stayed)
      | some (slots, i) =>
        (((t.createLease i (.fresh e.station slots (t.policy.clip (e.term.getD 0)) e.idleLimit false)).modifyStation
          e.station .dropQueued).post e.station
            (.granted e.ticket (t.handle i) slots (t.policy.clip (e.term.getD 0))), .granted) := rfl
  cases hq : t.overQuota e with
  | true => exact .inl ⟨rfl, by simp [hv, hq]⟩
  | false =>
    cases hf : t.fits e.count e.contiguous with
    | none => exact .inr (.inl ⟨rfl, rfl, by simp [hv, hq, hf]⟩)
    | some p => exact .inr (.inr ⟨p.1, p.2, rfl, rfl, by simp [hv, hq, hf]⟩)

@[simp] theorem visit_queue (t : Tables) (e : PendingEntry) : (t.visit e).1.queue = t.queue := by
  rcases visit_cases t e with ⟨_, h⟩ | ⟨_, _, h⟩ | ⟨_, _, _, _, h⟩ <;> simp [h]

theorem dropQueued_withQueue_chain (t : Tables) (e : PendingEntry) (pre es : List PendingEntry) :
    Tables.Chain N x { t with queue := pre ++ e :: es } { t.modifyStation e.station .dropQueued with queue := pre ++ es } :=
  modifyStation_withQueue t e.station .dropQueued (pre ++ es) ▸ Tables.Move.chain
    (.unqueue { t with queue := pre ++ e :: es } e (pre ++ es) ((List.sublist_cons_self e es).append_left pre)
      fun _ => List.perm_middle)

/-- A visit, with its entry in the queue until it leaves. -/
theorem visit_chain (t : Tables) (e : PendingEntry) (pre es : List PendingEntry) :
    Tables.Chain N x { t with queue := pre ++ e :: es }
      { (t.visit e).1 with queue := pre ++ if (t.visit e).2.leaves then es else e :: es } := by
  rcases visit_cases t e with ⟨_, h⟩ | ⟨_, _, h⟩ | ⟨slots, i, hquota, hfits, h⟩
  · rw [h]
    exact (dropQueued_withQueue_chain t e pre es).trans (post_withQueue_chain _ _ _ _)
  · rw [h]; exact .refl
  · have hg : ({ t with queue := pre ++ e :: es } : Tables).CanGrant i e.station slots :=
      canGrant_of_fits { t with queue := pre ++ e :: es } _ _ _ _ _ hfits
        (fun ⟨_, _, hfields, _⟩ => (hfields e (by simp)).2.2) (.inr (present_of_overQuota t e hquota))
    rw [h]
    refine (Tables.Move.chain (.create _ i e.station slots (t.policy.clip (e.term.getD 0)) e.idleLimit false hg)).trans ?_
    rw [createLease_withQueue]
    exact (dropQueued_withQueue_chain _ e pre es).trans (post_withQueue_chain _ _ _ _)

/-- The walk goes no further than an anchored entry that stays. -/
theorem passWalk_cons_stop (t : Tables) (e : PendingEntry) (es : List PendingEntry) (h : (t.visit e).2 = .stayed)
    (ha : e.anchored = true) :
    passWalk (e :: es) t = ((t.visit e).1, (e, .stayed) :: es.map fun y => (y, .unvisited)) := by
  simp [passWalk, h, ha]

theorem passWalk_cons_go (t : Tables) (e : PendingEntry) (es : List PendingEntry)
    (h : (t.visit e).2 ≠ .stayed ∨ e.anchored = false) : passWalk (e :: es) t =
      ((passWalk es (t.visit e).1).1, (e, (t.visit e).2) :: (passWalk es (t.visit e).1).2) := by
  have : ¬ ((t.visit e).2 = .stayed ∧ e.anchored = true) := by rintro ⟨h1, h2⟩; simp [h1, h2] at h
  simp [passWalk, this]

theorem passWalk_chain (es pre : List PendingEntry) (t : Tables) :
    Tables.Chain N x { t with queue := pre ++ es }
      { (passWalk es t).1 with queue := pre ++ passLeft (passWalk es t).2 } := by
  induction es generalizing t pre with
  | nil => exact .refl
  | cons e es ih =>
    have hv := visit_chain (N := N) (x := x) t e pre es
    by_cases hs : (t.visit e).2 = .stayed ∧ e.anchored = true
    · obtain ⟨hst, ha⟩ := hs
      rw [passWalk_cons_stop t e es hst ha]
      simpa [hst, passLeft_cons, passLeft_unvisited, Fate.leaves] using hv
    · rw [passWalk_cons_go t e es (by by_contra hc; simp_all)]
      refine hv.trans ?_
      cases hl : (t.visit e).2.leaves with
      | true => simpa [passLeft_cons, hl] using ih pre (t.visit e).1
      | false => simpa [passLeft_cons, hl] using ih (pre ++ [e]) (t.visit e).1

/-- Pass-over counting changes no request. -/
theorem passCount_sameRequest (limit : Nat) (fates : List (PendingEntry × Fate)) :
    List.Forall₂ PendingEntry.sameRequest (passLeft fates) ((passCount fates).1.map (PendingEntry.anchor limit)) := by
  induction fates with
  | nil => exact .nil
  | cons p rest ih =>
    obtain ⟨e, fate⟩ := p
    cases fate with
    | granted | removed => exact ih
    | stayed | unvisited => exact .cons ⟨rfl, rfl, rfl, rfl⟩ ih

theorem queuePass_chain (t : Tables) : Tables.Chain N x t t.queuePass :=
  (passWalk_chain t.queue [] t).trans
    (Tables.Move.chain (.requeue _ _ (passCount_sameRequest t.policy.anchorPasses (passWalk t.queue t).2)))

theorem passIf_chain (t : Tables) (b : Bool) : Tables.Chain N x t (t.passIf b) := by
  cases b with
  | false => exact .refl
  | true => exact queuePass_chain t

/-! ### Entries that leave (3.4) -/

/-- With distinct tickets, an entry's ticket takes out that entry alone. -/
theorem perm_cons_filter_ticket (q : List PendingEntry) (e : PendingEntry) (h : (q.map PendingEntry.ticket).Nodup)
    (he : e ∈ q) : q.Perm (e :: q.filter fun y => y.ticket != e.ticket) := by
  have hf : (q.filter fun y => y.ticket != e.ticket) = q.erase e := by
    rw [(List.Nodup.of_map _ h).erase_eq_filter]
    refine List.filter_congr fun y hy => ?_
    rw [Bool.eq_iff_iff, bne_iff_ne, bne_iff_ne]
    exact not_congr ⟨fun ht => List.inj_on_of_nodup_map h hy he ht, fun hye => hye ▸ rfl⟩
  rw [hf]
  exact List.perm_cons_erase he

theorem removeEntry_chain (t : Tables) (e : PendingEntry) (h : N → t.queueOrdered ∧ e ∈ t.queue) :
    Tables.Chain N x t (t.removeEntry e.ticket e.station) :=
  Tables.Move.chain (.unqueue t e (t.queue.filter fun y => y.ticket != e.ticket) List.filter_sublist fun hN =>
    let ⟨⟨_, hnd, _⟩, he⟩ := h hN
    perm_cons_filter_ticket _ _ hnd he)

theorem refuseFold_chain (reason : RefuseReason) (es : List PendingEntry) (t : Tables)
    (h : N → t.queueOrdered ∧ es.Sublist t.queue) : Tables.Chain N x t (es.foldl
      (fun t e => (t.removeEntry e.ticket e.station).post e.station (.refused e.ticket reason)) t) := by
  induction es generalizing t with
  | nil => exact .refl
  | cons e es ih =>
    have hc : Tables.Chain N x t ((t.removeEntry e.ticket e.station).post e.station (.refused e.ticket reason)) :=
      (removeEntry_chain t e fun hN => ⟨(h hN).1, (h hN).2.subset (by simp)⟩).trans (post_chain _ _ _)
    refine hc.trans (ih _ fun hN => ⟨chain_queueOrdered hc (h hN).1, ?_⟩)
    obtain ⟨⟨_, hnd, _⟩, hsub⟩ := h hN
    have hes : es.filter (fun y => y.ticket != e.ticket) = es := by
      have hnd' := hnd.sublist (hsub.map _)
      rw [List.map_cons, List.nodup_cons] at hnd'
      exact List.filter_eq_self.mpr fun y hy => by
        simpa using fun ht => hnd'.1 (List.mem_map.mpr ⟨y, hy, ht⟩)
    simpa [Tables.removeEntry, hes] using ((List.sublist_cons_self e es).trans hsub).filter fun y => y.ticket != e.ticket

theorem refuseEntries_chain (t : Tables) (pick : PendingEntry → Bool) (reason : RefuseReason) (h : N → t.queueOrdered) :
    Tables.Chain N x t (t.refuseEntries pick reason) :=
  refuseFold_chain reason _ t fun hN => ⟨h hN, List.filter_sublist⟩

/-! ### Leases of a lost station -/

@[simp] theorem mapLeases_lease? (t : Tables) (f : Lease → Lease) (i : Nat) :
    (t.mapLeases f).lease? i = (t.lease? i).map f := by
  by_cases h0 : i = 0
  · simp [Tables.lease?, Tables.entry, nth?, h0]
  · cases h : t.leases[i - 1]? <;> simp [Tables.lease?, Tables.entry, Tables.mapLeases, nth?, h0, h]

theorem setLease_lease? (t : Tables) (i j : Nat) (l l' : Lease) (h : t.lease? i = some l) :
    (t.setLease i l').lease? j = if j = i then some l' else t.lease? j := by
  obtain ⟨h1, h2⟩ := lease?_range t i l h
  by_cases hj : j = i
  · subst hj; simp [Tables.lease?, setLease_entry_self t j l' h1 h2]
  · simp [Tables.lease?, hj, setLease_entry_ne t i j l' hj]

theorem freeEntry_lease? (t : Tables) (i j : Nat) (l : Lease) (h : t.lease? i = some l) :
    (t.freeEntry i).lease? j = if j = i then none else t.lease? j := by
  obtain ⟨h1, h2⟩ := lease?_range t i l h
  by_cases hj : j = i
  · subst hj; simp [Tables.lease?, freeEntry_entry_self t j h1 h2]
  · simp [Tables.lease?, hj, freeEntry_entry_ne t i j hj]

theorem retire_lease? (t : Tables) (i j : Nat) (l : Lease) (r : RetireReason) (tell : Bool) (h : t.lease? i = some l) :
    (t.retire i l r tell).lease? j = if j = i then none else t.lease? j := by
  rw [← freeEntry_lease? t i j l h]
  simp [Tables.lease?, Tables.entry]

/-- What the removal of its owner leaves in a lease's entry: the house as owner, or no lease. -/
theorem loseLease_lease? (t : Tables) (reason : RetireReason) (i j : Nat) (l : Lease) (h : t.lease? i = some l) :
    (t.loseLease reason i).lease? j = if j = i then
      (if l.pinned && !l.isEnding then some { l with owner := Config.house } else none) else t.lease? j := by
  unfold Tables.loseLease
  rw [h]
  dsimp only
  split
  · rw [setLease_lease? t i j l _ h]
  · rw [retire_lease? t i j l _ _ h]

theorem loseLease_none (t : Tables) (reason : RetireReason) (i : Nat) (h : t.lease? i = none) :
    t.loseLease reason i = t := by
  simp [Tables.loseLease, h]

theorem loseLease_lease?_ne (t : Tables) (reason : RetireReason) (i j : Nat) (hj : j ≠ i) :
    (t.loseLease reason i).lease? j = t.lease? j := by
  cases h : t.lease? i with
  | none => rw [loseLease_none t reason i h]
  | some l => rw [loseLease_lease? t reason i j l h, if_neg hj]

@[simp] theorem loseLease_length (t : Tables) (reason : RetireReason) (i : Nat) :
    (t.loseLease reason i).stations.length = t.stations.length := by
  unfold Tables.loseLease
  split
  · rfl
  · split
    · rfl
    · rw [retire_keeps (fun t => t.stations.length) post_length, vacate_length]

/-- The house is at no station's address. -/
theorem house_not_present (t : Tables) (h : t.stations.length = 30) : t.station? Config.house = none := by
  simp [Tables.station?, nth?, Config.house, h]

theorem loseLease_chain (t : Tables) (a : Nat) (reason : RetireReason) (i : Nat)
    (h : ∀ l, t.lease? i = some l → l.owner = a) : Tables.Chain N a t (t.loseLease reason i) := by
  cases hl : t.lease? i with
  | none => rw [loseLease_none t reason i hl]
  | some l =>
    unfold Tables.loseLease
    rw [hl]
    dsimp only
    split
    · refine Tables.Move.chain (.relet t i l _ hl ⟨rfl, .inr ⟨h l hl, rfl⟩, fun h30 ⟨h4, hnd, _, hp⟩ =>
        ⟨h4, hnd, fun hm => ?_, hp⟩, fun _ => sound_of_eq _ _ rfl rfl⟩)
      simpa [house_not_present t h30] using hp _ hm
    · exact retire_chain t i l reason false hl

/-- The leases a station owns, lost one by one: each entry is lost as it stood, and every other entry is left alone. -/
theorem loseLeases_chain (a : Nat) (reason : RetireReason) (is : List Nat) (hnd : is.Nodup) (t : Tables)
    (h : ∀ i ∈ is, ∀ l, t.lease? i = some l → l.owner = a) :
    Tables.Chain N a t (is.foldl (fun t i => t.loseLease reason i) t) := by
  induction is generalizing t with
  | nil => exact .refl
  | cons i is ih =>
    obtain ⟨hi, hnd⟩ := List.nodup_cons.mp hnd
    refine (loseLease_chain t a reason i (h i (by simp))).trans (ih hnd _ fun j hj l hl => ?_)
    rw [loseLease_lease?_ne t reason i j (by rintro rfl; exact hi hj)] at hl
    exact h j (by simp [hj]) l hl

theorem loseLeases_lease? (reason : RetireReason) (is : List Nat) (hnd : is.Nodup) (t : Tables) (j : Nat) :
    (is.foldl (fun t i => t.loseLease reason i) t).lease? j = if j ∈ is then
      (t.lease? j).bind fun l => if l.pinned && !l.isEnding then some { l with owner := Config.house } else none
      else t.lease? j := by
  induction is generalizing t with
  | nil => rfl
  | cons i is ih =>
    obtain ⟨hi, hnd⟩ := List.nodup_cons.mp hnd
    rw [List.foldl_cons, ih hnd]
    by_cases hj : j = i
    · subst hj
      cases hl : t.lease? j with
      | none => simp [hi, loseLease_none t reason j hl, hl]
      | some l => simp [hi, loseLease_lease? t reason j j l hl]
    · simp [hj, loseLease_lease?_ne t reason i j hj]

theorem mem_leaseIndices (i : Nat) : i ∈ leaseIndices ↔ 1 ≤ i ∧ i ≤ 48 := by
  simp only [leaseIndices, List.mem_range'_1, Config.leaseCount]; omega

theorem leaseIndices_nodup : leaseIndices.Nodup := List.nodup_range'

theorem mem_ownedBy (t : Tables) (a i : Nat) :
    i ∈ t.ownedBy a ↔ (1 ≤ i ∧ i ≤ 48) ∧ ∃ l, t.lease? i = some l ∧ l.owner = a := by
  simp only [Tables.ownedBy, List.mem_filter, mem_leaseIndices, Option.any_eq_true_iff_get, beq_iff_eq]
  cases t.lease? i <;> simp

theorem ownedBy_nodup (t : Tables) (a : Nat) : (t.ownedBy a).Nodup := leaseIndices_nodup.filter _

/-- The tables of a removal (R85) when its leases are lost, its listening ended and its entries dropped. -/
def Tables.stripped (t : Tables) (a : Nat) (reason : RetireReason) : Tables :=
  (((t.ownedBy a).foldl (fun t i => t.loseLease reason i) t).mapLeases (.dropListener a)).dropEntriesOf a

theorem removeStation_eq (t : Tables) (a : Nat) (reason : RetireReason) : t.removeStation a reason =
    ((t.stripped a reason).setStation a none).passIf
      ((((t.ownedBy a).foldl (fun t i => t.loseLease reason i) t).mapLeases (.dropListener a)).anchoredOf a) := rfl

theorem stripped_chain (t : Tables) (a : Nat) (reason : RetireReason) : Tables.Chain N a t (t.stripped a reason) := by
  have hlose : Tables.Chain N a t ((t.ownedBy a).foldl (fun t i => t.loseLease reason i) t) :=
    loseLeases_chain a reason _ (ownedBy_nodup t a) t fun i hi l hl => by
      obtain ⟨-, l', hl', ho⟩ := (mem_ownedBy t a i).mp hi
      rw [hl] at hl'
      cases hl'
      exact ho
  exact (hlose.tail (.mapLeases _ (.dropListener a) (fun _ => rfl) (fun _ => rfl) (fun _ => List.filter_sublist)
    fun l => sound_of_eq _ _ rfl rfl)).tail (.dropEntries _ a)

theorem stripped_lease? (t : Tables) (a : Nat) (reason : RetireReason) (j : Nat) : (t.stripped a reason).lease? j =
    (if j ∈ t.ownedBy a then
      (t.lease? j).bind fun l => if l.pinned && !l.isEnding then some { l with owner := Config.house } else none
      else t.lease? j).map (Lease.dropListener a) := by
  simp only [Tables.stripped, Tables.dropEntriesOf, modifyStation_lease?]
  rw [← loseLeases_lease? reason _ (ownedBy_nodup t a) t j, ← mapLeases_lease?]
  rfl

@[simp] theorem stripped_queue (t : Tables) (a : Nat) (reason : RetireReason) :
    (t.stripped a reason).queue = t.queue.filter fun e => e.station != a := by
  have h : ∀ (is : List Nat) (t : Tables), (is.foldl (fun t i => t.loseLease reason i) t).queue = t.queue := by
    intro is
    induction is with
    | nil => exact fun _ => rfl
    | cons i is ih =>
      intro t
      rw [List.foldl_cons, ih]
      unfold Tables.loseLease
      split
      · rfl
      · split <;> simp
  simp [Tables.stripped, Tables.dropEntriesOf, Tables.mapLeases, h]

/-- Before its entry is freed, nothing names the station any more. -/
theorem stripped_namesNowhere (t : Tables) (a : Nat) (reason : RetireReason) (ha : (t.station? a).isSome)
    (hs : t.sized) : (t.stripped a reason).namesNowhere a := by
  obtain ⟨-, h48, h30⟩ := hs
  obtain ⟨st, hst⟩ := Option.isSome_iff_exists.mp ha
  obtain ⟨-, ha30⟩ := station?_isSome_range t a st hst
  have hhouse : Config.house ≠ a := by simp only [Config.house]; omega
  refine ⟨fun i l hl => ?_, fun e he => by
    rw [stripped_queue, List.mem_filter, bne_iff_ne] at he
    exact he.2⟩
  rw [stripped_lease?] at hl
  obtain ⟨l', hl', rfl⟩ := Option.map_eq_some_iff.mp hl
  refine ⟨fun ho => ?_, by simp [Lease.dropListener]⟩
  replace ho : l'.owner = a := ho
  split at hl'
  · obtain ⟨l0, -, h0⟩ := Option.bind_eq_some_iff.mp hl'
    split at h0
    · cases h0; exact hhouse ho
    · cases h0
  · next hno =>
    obtain ⟨h1, h2⟩ := lease?_range t i l' hl'
    exact hno ((mem_ownedBy t a i).mpr ⟨⟨h1, by omega⟩, l', hl', ho⟩)

theorem removeStation_reach (t : Tables) (a : Nat) (reason : RetireReason) (ha : (t.station? a).isSome) :
    Tables.Reach N t (t.removeStation a reason) :=
  .removal a (stripped_chain t a reason) (stripped_namesNowhere t a reason ha) (.chain (passIf_chain _ _))

end Sys2Proof.Machine
end

section
/-! SUPPORT. The period close, the management commands and the station replies as chains of moves. -/

namespace Sys2Proof.Machine

set_option Elab.async false

variable {N : Prop} {x : Nat}

/-! ### The period close (2.1.2) -/

theorem coolBounded_of_vacant (limit : Nat) (st : SlotState) (h : ∀ cool linger, st ≠ .cooling cool linger) :
    st.coolBounded limit := fun cool linger hc => absurd hc (h cool linger)

/-- A slot outside every lease takes a state other than LEASED and COOLING. -/
theorem setSlotState_chain (t : Tables) (n : Nat) (st st' : SlotState) (h : t.slotState? n = some st) (hv : st.vacant)
    (hv' : st'.vacant) (hc : ∀ cool linger, st' ≠ .cooling cool linger) : Tables.Chain N x t (t.setSlotState n st') :=
  Tables.Move.chain (.slotState t n st st' h hv hv' fun _ _ => coolBounded_of_vacant _ _ hc)

theorem actOn_chain (t : Tables) (n : Nat) (f : Finding) : Tables.Chain N x t (t.actOn n f) := by
  unfold Tables.actOn
  split
  · next h => exact (setSlotState_chain t n _ (.free true) h nofun nofun nofun).tail (.raise _ _)
  · next h => exact setSlotState_chain t n _ (.free false) h nofun nofun nofun
  · next cool linger h =>
    split
    · exact (setSlotState_chain t n _ (.barred .linger) h nofun nofun nofun).tail (.raise _ _)
    · next hlim =>
      refine Tables.Move.chain (.slotState t n _ _ h nofun nofun fun hp _ => ?_)
      rintro _ _ ⟨⟩
      obtain ⟨h1, h15⟩ := inRange_coolPeriods _ hp
      exact ⟨h1, h15, by omega⟩
  · exact .refl

theorem audit_chain (t : Tables) (report : List Finding) : Tables.Chain N x t (t.audit report) :=
  chain_foldl _ (fun t n => (Tables.Move.chain (.activity t n _)).trans (actOn_chain _ _ _)) _ _

theorem idleLease_chain (t : Tables) (i : Nat) : Tables.Chain N x t (t.idleLease i) := by
  unfold Tables.idleLease
  cases hl : t.lease? i with
  | none => exact .refl
  | some l =>
    dsimp only
    split
    · exact .refl
    · next hno =>
      have hpin : l.pinned = false := by simpa using fun hp : l.pinned = true => hno (by simp [hp])
      split
      · exact relet_chain t i l _ hl rfl rfl rfl fun _ => sound_of_eq _ _ rfl rfl
      · split
        · exact enterEnding_chain t i l _ .idle hl rfl rfl rfl hpin
        · exact relet_chain t i l _ hl rfl rfl rfl fun _ => sound_of_eq _ _ rfl rfl

theorem termLease_chain (t : Tables) (i : Nat) : Tables.Chain N x t (t.termLease i) := by
  unfold Tables.termLease
  cases hl : t.lease? i with
  | none => exact .refl
  | some l =>
    dsimp only
    split
    · exact .refl
    · next hno =>
      have hpin : l.pinned = false := by simpa using fun hp : l.pinned = true => hno (by simp [hp])
      split
      · exact .refl
      · split
        · exact enterEnding_chain t i l _ .expired hl rfl rfl rfl hpin
        · split
          · refine .trans ?_ (post_chain _ _ _)
            exact relet_chain t i l _ hl rfl rfl rfl fun _ => sound_of_eq _ _ rfl rfl
          · exact relet_chain t i l _ hl rfl rfl rfl fun _ => sound_of_eq _ _ rfl rfl

/-- An ENDING lease is not pinned, and stays so. -/
theorem sound_ending (l : Lease) (reason reason' : EndReason) (deadline deadline' : Nat) (notice notice' : Option Byte)
    (h : l.phase = .ending reason deadline notice) (hd : 1 ≤ deadline ∧ deadline ≤ 15 → 1 ≤ deadline' ∧ deadline' ≤ 15)
    (hs : l.sound) : Lease.sound { l with phase := .ending reason' deadline' notice' } := by
  refine ⟨fun hp => absurd (hs.1 hp) (by simp [h]), ?_⟩
  rintro _ _ _ ⟨⟩
  exact hd (hs.2 _ _ _ h)

theorem deadlineLease_chain (t : Tables) (i : Nat) : Tables.Chain N x t (t.deadlineLease i) := by
  unfold Tables.deadlineLease
  cases hl : t.lease? i with
  | none => exact .refl
  | some l =>
    dsimp only
    split
    · exact .refl
    · next reason deadline notice hph =>
      split
      · exact retire_chain t i l _ false hl
      · exact relet_chain t i l _ hl rfl rfl rfl fun _ =>
          sound_ending l reason reason deadline (deadline - 1) notice notice hph (by omega)

theorem coolSlot_chain (t : Tables) (n : Nat) : Tables.Chain N x t (t.coolSlot n) := by
  unfold Tables.coolSlot
  split
  · next cool linger h =>
    split
    · exact setSlotState_chain t n _ (.free false) h nofun nofun nofun
    · refine Tables.Move.chain (.slotState t n _ _ h nofun nofun fun _ hb => ?_)
      rintro _ _ ⟨⟩
      obtain ⟨h1, h15, hlim⟩ := hb cool linger rfl
      exact ⟨by omega, by omega, hlim⟩
  · exact .refl

theorem mapQueue_chain (t : Tables) (f : PendingEntry → PendingEntry) (hf : ∀ e : PendingEntry, e.sameRequest (f e)) :
    Tables.Chain N x t (t.mapQueue f) :=
  Tables.Move.chain (.requeue t _ (List.forall₂_map_right_iff.mpr (List.forall₂_same.mpr fun e _ => hf e)))

theorem queueWaits_chain (t : Tables) (h : N → t.queueOrdered) : Tables.Chain N x t t.queueWaits := by
  have hm : Tables.Chain N x t (t.mapQueue .waitDown) := mapQueue_chain t _ fun _ => ⟨rfl, rfl, rfl, rfl⟩
  exact hm.trans (refuseEntries_chain _ _ _ fun hN => chain_queueOrdered hm (h hN))

theorem auditAndIdle_chain (t : Tables) (report : List Finding) : Tables.Chain N x t (t.auditAndIdle report) :=
  (audit_chain t report).trans (chain_foldl _ idleLease_chain _ _)

/-- Stages 1 to 5. -/
def Tables.closeRecords (t : Tables) (report : List Finding) : Tables :=
  (t.coolingQuiet report).foldl Tables.coolSlot
    (t.endingLeases.foldl Tables.deadlineLease (leaseIndices.foldl Tables.termLease (t.auditAndIdle report)))

theorem closeStages_eq (t : Tables) (report : List Finding) :
    t.closeStages report = (t.closeRecords report).queueWaits.queuePass := rfl

theorem closeRecords_chain (t : Tables) (report : List Finding) : Tables.Chain N x t (t.closeRecords report) :=
  (((auditAndIdle_chain t report).trans (chain_foldl _ termLease_chain _ _)).trans
    (chain_foldl _ deadlineLease_chain _ _)).trans (chain_foldl _ coolSlot_chain _ _)

theorem periodClose_chain (t : Tables) (report : List Finding) (h : N → t.queueOrdered) :
    Tables.Chain N x t (t.periodClose report) := by
  have hrec : Tables.Chain N x t (t.closeRecords report) := closeRecords_chain t report
  unfold Tables.periodClose
  rw [closeStages_eq]
  exact ((hrec.trans (queueWaits_chain _ fun hN => chain_queueOrdered hrec (h hN))).trans (queuePass_chain _)).tail
    (.settle _ _ _)

/-! ### Management commands (10.3) -/

/-- The fields of a command that has passed steps 1 and 2 of its checks lie in their ranges, where a move needs it. -/
def Command.inRange (area : Nat) : Command → Prop
  | .setPolicy id v => (1 ≤ id ∧ id ≤ 16) ∧ policyValueOk id v = true
  | .houseGrant slots _ _ => (1 ≤ slots.length ∧ slots.length ≤ 8) ∧ slots.Pairwise (· < ·) ∧ ∀ n ∈ slots, 1 ≤ n ∧ n ≤ area
  | .resize area => 8 ≤ area ∧ area ≤ 63
  | _ => True

/-- A range check that passes says that its command is good. -/
theorem ranged_good (b : Bool) (c x : Command) (h : Parsed.ranged b c = .good x) : x = c ∧ b = true := by
  cases b with
  | false => cases h
  | true => exact ⟨(Parsed.good.inj h).symm, rfl⟩

/-- A form with one, two or three field bytes is good only when it has them. -/
theorem fields1_good (p : Byte → Parsed) (fields : List Byte) (x : Command) (h : fields1 p fields = .good x) :
    ∃ a, fields = [a] ∧ p a = .good x := by
  unfold fields1 at h
  split at h
  · exact ⟨_, rfl, h⟩
  · cases h

theorem fields2_good (p : Byte → Byte → Parsed) (fields : List Byte) (x : Command) (h : fields2 p fields = .good x) :
    ∃ a b, fields = [a, b] ∧ p a b = .good x := by
  unfold fields2 at h
  split at h
  · exact ⟨_, _, rfl, h⟩
  · cases h

theorem fields3_good (p : Byte → Byte → Byte → Parsed) (fields : List Byte) (x : Command)
    (h : fields3 p fields = .good x) : ∃ a b c, fields = [a, b, c] ∧ p a b c = .good x := by
  unfold fields3 at h
  split at h
  · exact ⟨_, _, _, rfl, h⟩
  · cases h

theorem fields0_good (p : Parsed) (fields : List Byte) (x : Command) (h : fields0 p fields = .good x) :
    fields = [] ∧ p = .good x := by
  unfold fields0 at h
  split at h
  · exact ⟨rfl, h⟩
  · cases h

/-- The numbers of a list of distinct numbers, put in ascending order, are the same. -/
theorem ascending_perm (bound : Nat) (ns : List Nat) (hnd : ns.Nodup) (h : ∀ n ∈ ns, 1 ≤ n ∧ n ≤ bound) :
    (ascending bound ns).Perm ns := by
  refine (List.perm_ext_iff_of_nodup (List.Nodup.filter _ List.nodup_range') hnd).mpr fun n => ?_
  simp only [List.mem_filter, List.mem_range'_1, List.contains_iff_mem]
  exact ⟨fun hn => hn.2, fun hn => ⟨by have := h n hn; omega, hn⟩⟩

theorem parseHouseGrant_good (area : Nat) (fields : List Byte) (x : Command) (h : parseHouseGrant area fields = .good x) :
    x.inRange area := by
  cases fields with
  | nil => cases h
  | cons count rest =>
    simp only [parseHouseGrant] at h
    split at h
    · obtain ⟨rfl, hb⟩ := ranged_good _ _ _ h
      simp only [Bool.and_eq_true, within_iff, List.all_eq_true, decide_eq_true_eq, beq_iff_eq, inArea_iff] at hb
      obtain ⟨⟨⟨⟨⟨h1, h8⟩, hlen⟩, harea⟩, hnd⟩, -⟩ := hb
      have hperm := ascending_perm area _ hnd fun n hn => ⟨(harea n hn).1, (harea n hn).2.1⟩
      refine ⟨?_, (List.pairwise_lt_range' 1).filter _, fun n hn => ?_⟩
      · rw [hperm.length_eq, List.length_map, List.length_take]; omega
      · have := harea n (hperm.subset hn); exact ⟨this.1, this.2.1⟩
    · cases h

theorem parseCommand_good (area : Nat) (c : List Byte) (x : Command) (h : parseCommand area c = .good x) :
    x.inRange area := by
  cases c with
  | nil => cases h
  | cons code fields =>
    simp only [parseCommand] at h
    unfold parseFields at h
    split at h
    case h_7 =>
      obtain ⟨a, b, c, rfl, hr⟩ := fields3_good _ _ _ h
      obtain ⟨rfl, hb⟩ := ranged_good _ _ _ hr
      rw [Bool.and_eq_true, isPolicyId_iff] at hb
      exact hb
    case h_9 => exact parseHouseGrant_good area fields x h
    case h_14 =>
      obtain ⟨a, rfl, hr⟩ := fields1_good _ _ _ h
      obtain ⟨rfl, hb⟩ := ranged_good _ _ _ hr
      exact (within_iff _ _ _).mp hb
    case h_5 | h_16 | h_17 =>
      obtain ⟨-, hr⟩ := fields0_good _ _ _ h
      cases hr
      trivial
    case h_1 | h_2 | h_4 | h_6 | h_12 | h_13 | h_15 =>
      obtain ⟨a, -, hr⟩ := fields1_good _ _ _ h
      obtain ⟨rfl, -⟩ := ranged_good _ _ _ hr
      trivial
    case h_3 | h_8 =>
      obtain ⟨a, b, -, hr⟩ := fields2_good _ _ _ h
      obtain ⟨rfl, -⟩ := ranged_good _ _ _ hr
      trivial
    case h_10 | h_11 =>
      obtain ⟨a, b, c, -, hr⟩ := fields3_good _ _ _ h
      obtain ⟨rfl, -⟩ := ranged_good _ _ _ hr
      trivial
    case h_18 => cases h

theorem houseGrant_chain (t : Tables) (slots : List Nat) (term : Nat) (pinned : Bool)
    (h : (Command.houseGrant slots term pinned).inRange t.policy.streamArea) :
    Tables.Chain N x t (t.houseGrant slots term pinned).tables := by
  obtain ⟨hlen, hasc, harea⟩ := h
  unfold Tables.houseGrant
  split
  · next hfree =>
    cases hi : t.freeIndex? with
    | none => exact Tables.Move.chain (.raise t _)
    | some i =>
      exact Tables.Move.chain (.create t i Config.house slots _ 0 pinned
        ⟨hi, hasc, harea, by simpa using hfree, fun _ => hlen, .inl rfl⟩)
  · exact .refl

theorem pin_chain (t : Tables) (h : Handle) (on : Bool) : Tables.Chain N x t (t.pin h on).tables := by
  unfold Tables.pin
  split
  · exact .refl
  · next l hl =>
    split
    · exact .refl
    · next hact =>
      split
      · exact .refl
      · exact relet_chain t h.index l _ (validLease?_lease? t h l hl) rfl rfl rfl fun _ _ =>
          sound_of_active _ ((isEnding_eq_false_iff l).mp (by simpa using hact))

theorem revoke_chain (t : Tables) (h : Handle) (immediate : Bool) : Tables.Chain N x t (t.revoke h immediate).tables := by
  unfold Tables.revoke
  split
  · exact .refl
  · next l hl =>
    have hl' := validLease?_lease? t h l hl
    split
    · exact retire_chain t h.index l _ true hl'
    · show Tables.Chain N x t (t.revokeSoftly h.index l)
      unfold Tables.revokeSoftly
      split
      · exact enterEnding_chain t h.index l _ .revoked hl' rfl rfl rfl rfl
      · next reason deadline notice hph =>
        exact relet_chain t h.index l _ hl' rfl rfl rfl fun _ => sound_ending l _ _ _ _ _ _ hph id

theorem bar_chain (t : Tables) (n : Nat) : Tables.Chain N x t (t.bar n).tables := by
  unfold Tables.bar
  split
  · exact .refl
  · exact .refl
  · exact .refl
  · next h => exact setSlotState_chain t n _ (.barred .manager) h nofun nofun nofun
  · next h => exact setSlotState_chain t n _ (.barred .manager) h nofun nofun nofun

theorem unbar_chain (t : Tables) (n : Nat) : Tables.Chain N x t (t.unbar n).tables := by
  unfold Tables.unbar
  split
  · exact .refl
  · next h => exact (setSlotState_chain t n _ (.free false) h nofun nofun nofun).trans (queuePass_chain _)
  · exact .refl

theorem resize_chain (t : Tables) (area : Nat) (h : 8 ≤ area ∧ area ≤ 63) (hN : N → t.queueOrdered) :
    Tables.Chain N x t (t.resize area).tables := by
  unfold Tables.resize
  split
  · exact .refl
  · next hne =>
    split
    · next hlt =>
      unfold Tables.shrink
      split
      · exact .refl
      · next hstop =>
        have hs : Tables.Move N x t ((t.setSlots (slotsBetween area t.policy.streamArea) .outside).setArea area) :=
          .shrink t area h.1 hlt fun n hn => by
            by_contra hc
            exact hstop (List.any_eq_true.mpr ⟨n, hn, by simpa using hc⟩)
        exact hs.chain.trans (refuseEntries_chain _ _ _ fun hn => move_queueOrdered hs (hN hn))
    · exact (Tables.Move.chain (.grow t area (by omega) h.2)).trans (queuePass_chain _)

theorem clearLease_chain (t : Tables) (i : Nat) : Tables.Chain N x t (t.clearLease i) := by
  unfold Tables.clearLease
  cases hl : t.lease? i with
  | none => exact .refl
  | some l => exact retire_chain t i l _ true hl

theorem clearLeases_chain (t : Tables) (hN : N → t.queueOrdered) : Tables.Chain N x t t.clearLeases.tables := by
  have hc : Tables.Chain N x t (leaseIndices.foldl Tables.clearLease t) := chain_foldl _ clearLease_chain _ _
  simp only [Tables.clearLeases]
  generalize leaseIndices.foldl Tables.clearLease t = u at hc ⊢
  exact hc.trans (refuseEntries_chain _ _ _ fun hn => chain_queueOrdered hc (hN hn))

theorem setPolicy_chain (t : Tables) (id v : Nat) (hid : 1 ≤ id ∧ id ≤ 16) (hv : policyValueOk id v = true) :
    Tables.Chain N x t (t.setPolicy id v).tables := by
  by_cases h : id = 1
  · subst h; exact .refl
  · exact Tables.Move.chain (.policy t id v (by omega) hv)

theorem setQuota_chain (t : Tables) (a quota : Nat) : Tables.Chain N x t (t.setQuota a quota).tables := by
  unfold Tables.setQuota
  cases hs : t.station? a with
  | none => exact .refl
  | some st =>
    refine .trans ?_ (queuePass_chain _)
    exact Tables.Move.chain (.station t a st _ hs ⟨rfl, rfl, rfl, id⟩)

/-- Every good command but SOFT_RESET. -/
theorem runCommand_reach (t : Tables) (y : Sync) (c : Command) (hc : c ≠ .softReset) (hr : c.inRange t.policy.streamArea)
    (hN : N → t.queueOrdered) : Tables.Reach N t (t.runCommand y c).tables := by
  cases c with
  | readSlot | readLease | readQueue | readCounts | readPolicy => exact .chain .refl
  | readStation a part =>
    refine .chain ?_
    simp only [Tables.runCommand, Tables.readStation]
    split <;> exact .refl
  | setPolicy id v => exact .chain (setPolicy_chain t id v hr.1 hr.2)
  | setQuota a quota => exact .chain (setQuota_chain t a quota)
  | houseGrant slots term pinned => exact .chain (houseGrant_chain t slots term pinned hr)
  | pin h on => exact .chain (pin_chain t h on)
  | revoke h immediate => exact .chain (revoke_chain t h immediate)
  | bar n => exact .chain (bar_chain t n)
  | unbar n => exact .chain (unbar_chain t n)
  | resize area => exact .chain (resize_chain t area hr hN)
  | evict a =>
    simp only [Tables.runCommand, Tables.evict]
    cases hs : t.station? a with
    | none => exact .chain .refl
    | some st => exact removeStation_reach t a _ (by simp [hs])
  | clearLeases => exact .chain (clearLeases_chain t hN)
  | softReset => exact absurd rfl hc

/-- A command taken: a soft reset, or moves and removals. -/
theorem takeCommand_reach (t : Tables) (y : Sync) (c : List Byte) (hN : N → t.queueOrdered) :
    (parseCommand t.policy.streamArea c = .good .softReset ∧ (t.takeCommand y c).tables = t.softReset) ∨
      (parseCommand t.policy.streamArea c ≠ .good .softReset ∧ Tables.Reach N t (t.takeCommand y c).tables) := by
  cases hp : parseCommand t.policy.streamArea c with
  | bad r => exact .inr ⟨nofun, by rw [takeCommand_bad t y c r hp]; exact .chain .refl⟩
  | good x =>
    rw [takeCommand_good t y c x hp]
    by_cases hx : x = .softReset
    · subst hx; exact .inl ⟨rfl, rfl⟩
    · exact .inr ⟨by simpa using hx, runCommand_reach t y x hx (parseCommand_good _ _ _ hp) hN⟩

/-! ### Joining and liveness -/

theorem forgetNotice_sound (a : Nat) (l : Lease) (h : l.sound) : (l.forgetNotice a).sound := by
  unfold Lease.forgetNotice
  split
  · split
    · exact h
    · next hph => exact sound_ending l _ _ _ _ _ _ hph id h
  · exact h

@[simp] theorem forgetNotice_slots (a : Nat) (l : Lease) : (l.forgetNotice a).slots = l.slots := by
  unfold Lease.forgetNotice; split <;> (try split) <;> rfl
@[simp] theorem forgetNotice_owner (a : Nat) (l : Lease) : (l.forgetNotice a).owner = l.owner := by
  unfold Lease.forgetNotice; split <;> (try split) <;> rfl
@[simp] theorem forgetNotice_listeners (a : Nat) (l : Lease) : (l.forgetNotice a).listeners = l.listeners := by
  unfold Lease.forgetNotice; split <;> (try split) <;> rfl

theorem rejoin_chain (t : Tables) (a : Nat) (seq : BitVec 4) : Tables.Chain N x t (t.rejoin a seq) :=
  (((Tables.Move.chain (.dropEntries t a)).trans (modifyStation_chain _ a _ (rejoined_keeps seq))).tail
    (.mapLeases _ _ (forgetNotice_slots a) (forgetNotice_owner a) (fun l => by simp) (forgetNotice_sound a))).trans
      (passIf_chain _ _)

theorem silenceExpiry_reach (t : Tables) (a : Nat) : Tables.Reach N t (t.silenceExpiry a) := by
  unfold Tables.silenceExpiry
  split
  · next h =>
    have ha : (t.station? a).isSome := by
      unfold Tables.isSilent at h
      obtain ⟨st, hst, -⟩ := (Option.any_eq_true _ _).mp h
      simp [hst]
    exact .trans (removeStation_reach t a _ ha) (.chain (Tables.Move.chain (.raise _ _)))
  · exact .chain .refl

theorem tableMiss_chain (t : Tables) (a : Nat) : Tables.Chain N x t (t.miss a) :=
  modifyStation_chain t a _ (miss_keeps _ _)

/-! ### Acknowledgment -/

theorem afterAck_chain (t : Tables) (a : Nat) (n : Notice) : Tables.Chain N x t (t.afterAck a n) := by
  unfold Tables.afterAck
  split
  · split
    · exact .refl
    · next h _ _ l hl =>
      split
      · split
        · exact retire_chain t _ l _ false (validLease?_lease? t _ l hl)
        · exact .refl
      · exact .refl
  · exact .refl

theorem acknowledge_chain (t : Tables) (a : Nat) (ack : Option Byte) : Tables.Chain N x t (t.acknowledge a ack) := by
  unfold Tables.acknowledge
  split
  · next st number hs =>
    split
    · exact .refl
    · next n rest hn =>
      split
      · exact (Tables.Move.chain (.station t a st _ hs (dropOldest_keeps st n rest hn))).trans (afterAck_chain _ _ _)
      · exact .refl
  · exact .refl

/-! ### Station requests (chapter Station Requests) -/

/-- The count of a GRANT that has passed the field check. -/
def Request.inRange : Request → Prop
  | .grant g => 1 ≤ g.count ∧ g.count ≤ 8
  | _ => True

theorem parseGrant_inRange (fields : List Byte) (r : Request) (h : parseGrant fields = some r) : r.inRange := by
  unfold parseGrant at h
  split at h
  · split at h
    · next hb =>
      cases h
      simp only [Bool.and_eq_true, within_iff] at hb
      exact hb.1.1
    · cases h
  · cases h

/-- A request on a handle is the one its kind gives. -/
theorem onHandle_eq_some (index epoch : Byte) (k : Handle → Request) (r : Request) :
    onHandle index epoch k = some r ↔ isIndex index.toNat = true ∧ r = k (handleOf index epoch) := by
  rw [onHandle, Option.ite_none_right_eq_some, Option.some.injEq, eq_comm (a := r)]

theorem onHandleOnly_inRange (fields : List Byte) (k : Handle → Request) (hk : ∀ h, (k h).inRange) (r : Request)
    (h : onHandleOnly fields k = some r) : r.inRange := by
  unfold onHandleOnly at h
  split at h
  · obtain ⟨-, rfl⟩ := (onHandle_eq_some _ _ _ _).mp h
    exact hk _
  · cases h

theorem onByte_inRange (fields : List Byte) (k : Byte → Option Request) (hk : ∀ b r, k b = some r → r.inRange)
    (r : Request) (h : onByte fields k = some r) : r.inRange := by
  unfold onByte at h
  split at h
  · exact hk _ _ h
  · cases h

theorem requestFields_inRange (kind : Nat) (fields : List Byte) (r : Request) (h : requestFields kind fields = some r) :
    r.inRange := by
  unfold requestFields at h
  split at h
  case h_1 =>
    split at h <;> cases h
    trivial
  case h_2 => exact parseGrant_inRange fields r h
  case h_3 =>
    unfold parseRenew at h
    split at h
    · obtain ⟨-, rfl⟩ := (onHandle_eq_some _ _ _ _).mp h
      trivial
    · cases h
  case h_4 | h_5 | h_6 | h_8 =>
    refine onHandleOnly_inRange fields _ ?_ r h
    exact fun _ => trivial
  case h_7 | h_9 | h_10 =>
    refine onByte_inRange fields _ (fun b r hb => ?_) r h
    split at hb <;> cases hb
    trivial
  case h_11 => cases h

theorem parseRequest_inRange (request : List Byte) (r : Request) (h : parseRequest request = some r) : r.inRange := by
  cases request with
  | nil => cases h
  | cons kind fields => exact requestFields_inRange _ _ _ h

/-- The grant decision has four outcomes on the tables: a grant, a new entry, an alarm, nothing. -/
theorem grantDecision_chain (t : Tables) (a : Nat) (st : Station) (g : GrantAsk) (hs : ∃ st', t.station? a = some st')
    (hg : 1 ≤ g.count ∧ g.count ≤ 8) (hq : ∀ st', t.station? a = some st' → st'.queued = st.queued) :
    Tables.Chain N x t (t.grantDecision a st g).1 := by
  obtain ⟨st', hst'⟩ := hs
  unfold Tables.grantDecision
  split
  · exact .refl
  · split
    · next slots i hf _ =>
      exact Tables.Move.chain (.create t i a slots _ g.idleLimit false
        (canGrant_of_fits t a g.count g.contiguous slots i hf (fun _ => hg) (.inr (by simp [hst']))))
    · split
      · split
        · next hroom =>
          refine Tables.Move.chain (.enqueue t a g st' hst' ?_ hg)
          rw [queueRoom_iff] at hroom ⊢
          exact hq st' hst' ▸ hroom
        · exact Tables.Move.chain (.raise t _)
      · split
        · exact Tables.Move.chain (.raise t _)
        · exact .refl

theorem requestRenew_chain (t : Tables) (a : Nat) (h : Handle) (requested : Nat) :
    Tables.Chain N x t (t.requestRenew a h requested).1 := by
  unfold Tables.requestRenew
  split
  · exact .refl
  · next l hl =>
    have hr : Tables.Chain N x t (t.setLease h.index (l.renewed (t.policy.clip requested))) :=
      relet_chain t h.index l _ (validLease?_lease? t h l hl) rfl rfl rfl fun _ _ => sound_of_active _ rfl
    split
    · exact .refl
    · dsimp only
      split
      · exact hr
      · exact hr
      · exact .refl
      · exact .refl

theorem requestRelease_chain (t : Tables) (a : Nat) (h : Handle) : Tables.Chain N x t (t.requestRelease a h).1 := by
  unfold Tables.requestRelease
  split
  · exact .refl
  · next l hl =>
    split
    · exact .refl
    · exact retire_chain t _ l _ false (validLease?_lease? t h l hl)

/-- The station that attaches is present, and not yet a listener or the owner. -/
theorem requestAttach_chain (t : Tables) (a : Nat) (h : Handle) (ha : (t.station? a).isSome) :
    Tables.Chain N x t (t.requestAttach a h).1 := by
  unfold Tables.requestAttach
  split
  · exact .refl
  · next l hl =>
    split
    · exact .refl
    · next hnew =>
      obtain ⟨hown, hnot⟩ := not_or.mp hnew
      split
      · exact .refl
      · split
        · exact .refl
        · next hroom =>
          refine Tables.Move.chain (.relet t h.index l _ (validLease?_lease? t h l hl) ⟨rfl, .inl rfl,
            fun _ ⟨_, hnd, ho, hp⟩ => ⟨?_, ?_, ?_, ?_⟩, fun _ => sound_of_eq _ _ rfl rfl⟩)
          · simp only [Config.listenerMax] at hroom
            simp; omega
          · simpa using List.nodup_append.mpr ⟨hnd, by simp, by simpa using fun b hb (hba : b = a) => hnot (hba ▸ hb)⟩
          · simpa using ⟨ho, hown⟩
          · simpa [or_imp, forall_and] using ⟨hp, ha⟩

theorem requestDetach_chain (t : Tables) (a : Nat) (h : Handle) : Tables.Chain N x t (t.requestDetach a h).1 := by
  unfold Tables.requestDetach
  split
  · exact .refl
  · next l hl =>
    split
    · refine Tables.Move.chain (.relet t h.index l _ (validLease?_lease? t h l hl) ⟨rfl, .inl rfl,
        fun _ ⟨h4, hnd, ho, hp⟩ => ?_, fun _ => sound_of_eq _ _ rfl rfl⟩)
      have hsub : (l.dropListener a).listeners.Sublist l.listeners := List.filter_sublist
      exact ⟨hsub.length_le.trans h4, hnd.sublist hsub, fun hm => ho (hsub.subset hm), fun b hb => hp b (hsub.subset hb)⟩
    · exact .refl

theorem requestCancel_chain (t : Tables) (a ticket : Nat) (hN : N → t.queueOrdered) :
    Tables.Chain N x t (t.requestCancel a ticket).1 := by
  unfold Tables.requestCancel
  split
  · exact .refl
  · next e he =>
    have hb := List.find?_some he
    simp only [Bool.and_eq_true, beq_iff_eq] at hb
    obtain ⟨rfl, rfl⟩ := hb
    exact (removeEntry_chain t e fun hn => ⟨hN hn, List.mem_of_find?_eq_some he⟩).trans (passIf_chain _ _)

theorem runRequest_reach (t : Tables) (a : Nat) (st : Station) (r : Request) (hs : t.station? a = some st)
    (hr : r.inRange) (hN : N → t.queueOrdered) : Tables.Reach N t (t.runRequest a st r).1 := by
  cases r with
  | leave => exact removeStation_reach t a _ (by simp [hs])
  | grant g => exact .chain (grantDecision_chain t a st g ⟨st, hs⟩ hr fun st' h => by rw [hs] at h; cases h; rfl)
  | renew h term => exact .chain (requestRenew_chain t a h term)
  | release h => exact .chain (requestRelease_chain t a h)
  | attach h => exact .chain (requestAttach_chain t a h (by simp [hs]))
  | detach h => exact .chain (requestDetach_chain t a h)
  | querySlot n => exact .chain .refl
  | queryLease h =>
    refine .chain ?_
    simp only [Tables.runRequest, Tables.requestQueryLease]
    split <;> exact .refl
  | listMine start => exact .chain (modifyStation_chain t a _ fun _ => ⟨rfl, rfl, rfl, id⟩)
  | cancel ticket => exact .chain (requestCancel_chain t a ticket hN)

theorem storeResponse_chain (t : Tables) (a : Nat) (seq : BitVec 4) (body : List Byte) :
    Tables.Chain N x t (t.storeResponse a seq body) :=
  modifyStation_chain t a _ fun _ => ⟨rfl, rfl, rfl, id⟩

theorem requestStage_reach (t : Tables) (a : Nat) (seq : BitVec 4) (request : List Byte) (hN : N → t.queueOrdered) :
    Tables.Reach N t (t.requestStage a seq request).1 := by
  unfold Tables.requestStage
  split
  · exact .chain .refl
  · next st hs =>
    split
    · exact .chain .refl
    · refine .trans (u := (t.checkedRequest a st request).1) ?_ (.chain (storeResponse_chain _ _ _ _))
      unfold Tables.checkedRequest
      split
      · exact .chain .refl
      · next r hr => exact runRequest_reach t a st r hs (parseRequest_inRange _ _ hr) hN

theorem joinStage_chain (t : Tables) (a : Nat) (seq : BitVec 4) (request : List Byte) :
    Tables.Chain N x t (t.joinStage a seq request).1 := by
  unfold Tables.joinStage
  split
  · exact storeResponse_chain _ _ _ _
  · split
    · next hs => exact Tables.Move.chain (.join t a _ seq hs)
    · split
      · exact .refl
      · exact rejoin_chain t a seq

theorem openReply_chain (t : Tables) (f : ReplyFrame) : Tables.Chain N x t (t.openReply f).1 := by
  unfold Tables.openReply
  split
  · exact .refl
  · split
    · next hs => exact Tables.Move.chain (.join t f.source _ f.seq hs)
    · split
      · exact rejoin_chain t f.source f.seq
      · exact .refl

theorem ownReply_reach (t : Tables) (f : ReplyFrame) (hN : N → t.queueOrdered) : Tables.Reach N t (t.ownReply f).1 := by
  have halive : Tables.Chain N 0 t (t.modifyStation f.source .alive) := modifyStation_chain t f.source _ alive_keeps
  unfold Tables.ownReply
  split
  · exact .chain (halive.trans (acknowledge_chain _ _ _))
  · next request _ =>
    split
    · exact .chain .refl
    · refine .trans (.chain halive) (.trans ?_ (.chain (acknowledge_chain _ _ _)))
      split
      · exact .chain (joinStage_chain _ _ _ _)
      · exact requestStage_reach _ _ _ _ fun hn => chain_queueOrdered halive (hN hn)

theorem takeReply_reach (t : Tables) (f : ReplyFrame) (o : Bool) (hN : N → t.queueOrdered) :
    Tables.Reach N t (t.takeReply f o).1 := by
  cases o with
  | false => exact ownReply_reach t f hN
  | true => exact .chain (openReply_chain t f)

end Sys2Proof.Machine
end

section
/-! SUPPORT. What a step does to the whole part: moves of the tables, of the waiting expiries, of the Trunk Monitor and of
the Beacon Generator, each with what it takes for granted. -/

namespace Sys2Proof.Machine

set_option Elab.async false

/-! ### The snapshot is whole (9.2) -/

theorem slotView_bytes_length (v : SlotView) : v.bytes.length = 2 := by
  cases v <;> rfl

theorem length_flatten_slotViews (vs : List SlotView) : (vs.map SlotView.bytes).flatten.length = 2 * vs.length := by
  induction vs with
  | nil => rfl
  | cons v vs ih => rw [List.map_cons, List.flatten_cons, List.length_append, ih, slotView_bytes_length, List.length_cons]; omega

theorem snapshot_whole (epoch : BitVec 16) (image : MapImage) (h : image.entries.length = 63) :
    wholeImage (snapshot epoch image) := by
  have hlen : ([0xA5] ++ word epoch.toNat ++ [byte image.area] ++ (image.entries.map SlotView.bytes).flatten).length = 130 := by
    rw [List.length_append, length_flatten_slotViews, h]; rfl
  refine ⟨?_, rfl, ?_⟩
  · rw [snapshot, withCrc, List.length_append, hlen]; rfl
  · rw [snapshot, withCrc, List.take_left' hlen]; rfl

theorem image_length (t : Tables) : t.image.entries.length = 63 := by
  simp [Tables.image, slotNumbers, Config.slotCount]

/-! ### Moves of the part -/

/-- One move of the whole part. `N` is as for a move of the tables; `C` says that the alarm flags may be cleared. -/
inductive State.Move (N C : Prop) : State → State → Prop
  | beside {s u : State} (hte : u.te = s.te) (he : u.arbiter.expiries = s.arbiter.expiries) (ht : u.trunk = s.trunk)
    (hb : u.beacon = s.beacon) (hp : u.pending = s.pending) : Move N C s u
  | tables (s : State) (te : Tables) (h : Tables.Reach N s.te te) : Move N C s { s with te := te }
  | clear (s : State) (mask : Byte) (hC : C) : Move N C s { s with te := s.te.clearAlarms mask }
  | soften (s : State) (hC : C) : Move N C s { s with te := s.te.softReset }
  | reset (s : State) (hC : C) : Move N C s { State.reset with pending := s.pending }
  | raiseExpiry (s : State) (a : Nat) : Move N C s (s.raiseExpiry a)
  | takeExpiry (s : State) (a : Nat) :
    Move N C s { s with arbiter := { s.arbiter with expiries := s.arbiter.expiries.erase a } }
  | millisecond (s : State) : Move N C s s.tickMillisecond
  | snapshot (s : State) (image : List Byte) (h : wholeImage image) : Move N C s (s.takeSnapshot image)
  | dropNext (s : State) : Move N C s { s with beacon := { s.beacon with next := none } }
  | swap (s : State) : Move N C s { s with beacon := s.beacon.swap }
  | watch (s : State) (low : Bool) (watch : Nat) (h : watch ≤ 1000) :
    Move N C s { s with trunk := { s.trunk with tfsWasLow := low, tclkWatch := watch } }
  | sync (s : State) (y : Sync) (hr : s.trunk.sync.ranged → y.ranged)
    (hw : y.window?.isSome = s.trunk.sync.window?.isSome) : Move N C s (s.setSync y)
  | lock (s : State) : Move N C s s.enterLocked
  | lose (s : State) : Move N C s s.loseTrunk

/-- Moves of the part one after the other. -/
abbrev State.Runs (N C : Prop) : State → State → Prop := Relation.ReflTransGen (State.Move N C)

variable {N C : Prop}

theorem State.Move.runs {s u : State} (h : State.Move N C s u) : State.Runs N C s u := Relation.ReflTransGen.single h

/-! ### Operations taken whole -/

theorem performCommand_runs (s : State) (c : List Byte) (hN : N → s.te.queueOrdered)
    (hC : parseCommand s.te.policy.streamArea c = .good .softReset → C) : State.Runs N C s (s.performCommand c) := by
  rcases takeCommand_reach (N := N) s.te s.trunk.sync c hN with ⟨hp, hte⟩ | ⟨hp, hte⟩
  · have hs : s.performCommand c = (s.responded s.te.softReset (c.headD 0) (s.te.takeCommand s.trunk.sync c).result
        (s.te.takeCommand s.trunk.sync c).body).afterSoftReset := by
      simp [State.performCommand, hp, State.responded, hte]
    rw [hs]
    exact (((State.Move.soften s (hC hp)).runs.tail (.beside rfl rfl rfl rfl rfl)).tail (.dropNext _)).tail
      (.beside rfl rfl rfl rfl rfl)
  · rw [performCommand_eq s c hp]
    exact (State.Move.tables s _ hte).runs.tail (.beside rfl rfl rfl rfl rfl)

theorem performClose_runs (s : State) (report : List Finding) (hN : N → s.te.queueOrdered) :
    State.Runs N C s (s.performClose report) := by
  have hte : State.Move N C s { s with te := s.te.periodClose report } :=
    .tables s _ (.chain (periodClose_chain s.te report hN))
  have htaken : State.Runs N C s
      { s with te := s.te.periodClose report, arbiter := { s.arbiter with closes := s.arbiter.closes.tail } } :=
    hte.runs.tail (.beside rfl rfl rfl rfl rfl)
  exact htaken.tail (.snapshot _ _ (snapshot_whole _ _ (image_length (s.te.closeStages report))))

theorem performExpiry_runs (s : State) (a : Nat) : State.Runs N C s (s.performExpiry a) :=
  (State.Move.tables s _ (silenceExpiry_reach s.te a)).runs.tail (.takeExpiry _ a)

theorem performMiss_runs (s : State) (a : Nat) : State.Runs N C s (s.performMiss a) :=
  (State.Move.tables s _ (.chain (tableMiss_chain s.te a))).runs.tail (.beside rfl rfl rfl rfl rfl)

theorem performReply_runs (s : State) (f : ReplyFrame) (o : Bool) (hN : N → s.te.queueOrdered) :
    State.Runs N C s (s.performReply f o) := by
  rw [performReply_eq]
  exact (State.Move.tables s _ (takeReply_reach s.te f o hN)).runs.tail (.beside rfl rfl rfl rfl rfl)

theorem perform_runs (s : State) (op : Operation) (hN : N → s.te.queueOrdered)
    (hC : ∀ c, op = .command c → parseCommand s.te.policy.streamArea c = .good .softReset → C) :
    State.Runs N C s (s.perform op) := by
  cases op with
  | command c => exact performCommand_runs s c hN (hC c rfl)
  | close r => exact performClose_runs s r hN
  | expiry a => exact performExpiry_runs s a
  | station op =>
    cases op with
    | reply f o => exact performReply_runs s f o hN
    | miss a => exact performMiss_runs s a

theorem take_runs (s : State) (op : Operation) (hN : N → s.te.queueOrdered)
    (hC : ∀ c, op = .command c → parseCommand s.te.policy.streamArea c = .good .softReset → C) :
    State.Runs N C s (s.take op) := by
  unfold State.take
  split
  · exact perform_runs s op hN hC
  · exact .refl

/-! ### Handing over -/

/-- WRITE COMMAND concerns the port alone. -/
theorem writeCommand_eq (s : State) (c : List Byte) : ∃ p, s.writeCommand c = { s with port := p } := by
  unfold State.writeCommand
  split
  · exact ⟨_, rfl⟩
  · split <;> exact ⟨_, rfl⟩

theorem writeCommand_runs (s : State) (c : List Byte) : State.Runs N C s (s.writeCommand c) := by
  obtain ⟨p, h⟩ := writeCommand_eq s c
  rw [h]
  exact .single (.beside rfl rfl rfl rfl rfl)

theorem manage_runs (s : State) (c : List Byte) (hN : N → s.te.queueOrdered)
    (hC : parseCommand s.te.policy.streamArea c = .good .softReset → C) : State.Runs N C s (s.manage c) := by
  obtain ⟨p, hp⟩ := writeCommand_eq s c
  unfold State.manage
  split
  · exact take_runs s _ hN (by rintro _ ⟨⟩; exact hC)
  · refine (writeCommand_runs s c).trans (take_runs _ _ ?_ ?_)
    · rw [hp]; exact hN
    · rw [hp]; rintro _ ⟨⟩; exact hC

/-- The events of an exchange concern the line and the operation handed over alone. -/
theorem missed_beside (s : State) (a : Nat) : State.Move N C s (s.missed a) := by
  unfold State.missed
  dsimp only
  split <;> exact .beside rfl rfl rfl rfl rfl

theorem sendPoll_beside (s : State) : State.Move N C s s.sendPoll := .beside rfl rfl rfl rfl rfl

theorem gapComplete_beside (s : State) : State.Move N C s s.gapComplete := by
  unfold State.gapComplete
  split
  · exact sendPoll_beside s
  · exact .beside rfl rfl rfl rfl rfl

theorem pollSent_beside (s : State) : State.Move N C s s.pollSent := by
  unfold State.pollSent; split <;> exact .beside rfl rfl rfl rfl rfl

theorem startBit_beside (s : State) : State.Move N C s s.startBit := by
  unfold State.startBit; split <;> exact .beside rfl rfl rfl rfl rfl

theorem windowExpiry_beside (s : State) : State.Move N C s s.windowExpiry := by
  unfold State.windowExpiry
  split
  · exact missed_beside s _
  · exact .beside rfl rfl rfl rfl rfl

theorem frameEnd_beside (s : State) (chars : List RxChar) : State.Move N C s (s.frameEnd chars) := by
  unfold State.frameEnd
  split
  · split
    · exact .beside rfl rfl rfl rfl rfl
    · exact missed_beside s _
  · exact .beside rfl rfl rfl rfl rfl

theorem tooLong_beside (s : State) : State.Move N C s s.tooLong := by
  unfold State.tooLong
  split
  · exact missed_beside s _
  · exact .beside rfl rfl rfl rfl rfl

theorem responseSent_beside (s : State) : State.Move N C s s.responseSent := by
  unfold State.responseSent; split <;> exact .beside rfl rfl rfl rfl rfl

@[simp] theorem missed_te (s : State) (a : Nat) : (s.missed a).te = s.te := by
  unfold State.missed; dsimp only; split <;> rfl

@[simp] theorem frameEnd_te (s : State) (chars : List RxChar) : (s.frameEnd chars).te = s.te := by
  unfold State.frameEnd
  split
  · split
    · rfl
    · exact missed_te s _
  · rfl

theorem takeHandedReply_runs (s : State) (f : ReplyFrame) (hN : N → s.te.queueOrdered) :
    State.Runs N C s (s.takeHandedReply f) := by
  unfold State.takeHandedReply
  split
  · split
    · exact take_runs s _ hN nofun
    · exact .refl
  · exact .refl

theorem replied_runs (s : State) (f : ReplyFrame) (hN : N → s.te.queueOrdered) : State.Runs N C s (s.replied f) := by
  unfold State.replied
  split
  · exact (frameEnd_beside s _).runs.trans (takeHandedReply_runs _ f (by simpa using hN))
  · exact takeHandedReply_runs s f hN

theorem windowExpiry_te (s : State) : s.windowExpiry.te = s.te := by
  unfold State.windowExpiry
  split
  · exact missed_te s _
  · rfl

theorem missReport_runs (s : State) (a : Nat) (hN : N → s.te.queueOrdered) : State.Runs N C s (s.missReport a) := by
  unfold State.missReport
  split
  · split
    · exact (windowExpiry_beside s).runs.trans (take_runs _ _ (by rw [windowExpiry_te]; exact hN) nofun)
    · exact take_runs s _ hN nofun
  · exact take_runs s _ hN nofun

theorem expire_runs (s : State) (a : Nat) (hN : N → s.te.queueOrdered) : State.Runs N C s (s.expire a) := by
  unfold State.expire
  split
  · exact take_runs s _ hN nofun
  · split
    · exact (State.Move.raiseExpiry s a).runs.trans
        (take_runs _ _ (fun hn => queueOrdered_of_eq (modifyStation_queue _ _ _) (modifyStation_ticket _ _ _) (hN hn)) nofun)
    · exact take_runs s _ hN nofun

theorem closeWith_runs (s : State) (runOut : List Finding → List Nat) (record : Nat) (hN : N → s.te.queueOrdered) :
    State.Runs N C s (s.closeWith runOut record) := by
  rcases closeWith_cases s runOut record with h | ⟨r, -, h⟩ <;> rw [h]
  exact performClose_runs s r hN

/-! ### The trunk (chapter Trunk Monitor and Audit) -/

theorem endByte_ranged (w : Window) (bitPos : Nat) (b : Byte) (h : w.ranged) : (w.endByte bitPos b).ranged := by
  obtain ⟨hf, hl, hc⟩ := h
  unfold Window.endByte
  split
  · refine ⟨hf, by simpa [raiseCount] using hl, fun c hm => ?_⟩
    simp only [raiseCount, setNth] at hm
    split at hm
    · exact hc c hm
    · rcases List.mem_or_eq_of_mem_set hm with hm | rfl
      · exact hc c hm
      · exact min_le_left _ _
  · exact ⟨hf, hl, hc⟩

theorem fresh_ranged (idle : Byte) : (Window.fresh idle).ranged := by
  refine ⟨Nat.zero_le _, by simp [Window.fresh, noCounts, Config.slotCount], fun c hc => ?_⟩
  rw [List.eq_of_mem_replicate hc]
  exact Nat.zero_le _

theorem nextFrame_ranged (w : Window) (idle : Byte) (h : w.ranged) : (w.nextFrame idle).ranged := by
  unfold Window.nextFrame
  split
  · exact fresh_ranged idle
  · next hc =>
    simp only [Window.complete, Config.windowFrames, beq_iff_eq] at hc
    obtain ⟨hf, hl⟩ := h
    exact ⟨by simp only; omega, hl⟩

theorem advance_ranged (tfs tdat : Bool) (y : Sync) (al : Alignment) (hal : y.alignment? = some al) (hb : al.bitPos + 1 < 512)
    (h : y.ranged) : (y.advance tfs tdat).ranged := by
  cases y with
  | unlocked => trivial
  | confirming al' good => cases hal; exact ⟨Nat.lt_succ_iff.mp hb, h.2⟩
  | locked al' w => cases hal; exact ⟨Nat.lt_succ_iff.mp hb, endByte_ranged _ _ _ h.2⟩
  | slipping al' w bad => cases hal; exact ⟨Nat.lt_succ_iff.mp hb, endByte_ranged _ _ _ h.2.1, h.2.2⟩

theorem advance_held (tfs tdat : Bool) (y : Sync) : (y.advance tfs tdat).window?.isSome = y.window?.isSome := by
  cases y <;> rfl

theorem windowFill_ranged (w : Window) (al : Alignment) (h : w.ranged) : (w.fillFrame al).ranged := by
  unfold Window.fillFrame
  split
  · exact h
  · exact endByte_ranged _ _ _ h

theorem fillFrame_ranged (y : Sync) (h : y.ranged) : y.fillFrame.ranged := by
  cases y with
  | unlocked => trivial
  | confirming al good => exact h
  | locked al w => exact ⟨h.1, windowFill_ranged w al h.2⟩
  | slipping al w bad => exact ⟨h.1, windowFill_ranged w al h.2.1, h.2.2⟩

theorem fillFrame_held (y : Sync) : y.fillFrame.window?.isSome = y.window?.isSome := by
  cases y <;> rfl

theorem deliver_runs (s : State) : State.Runs N C s s.deliver := by
  unfold State.deliver
  split
  · exact .refl
  · split
    · exact (State.Move.swap s).runs.tail (.beside rfl rfl rfl rfl rfl)
    · exact .refl

@[simp] theorem deliver_te (s : State) : s.deliver.te = s.te := by
  unfold State.deliver
  split
  · rfl
  · split <;> rfl

theorem judge_runs (s : State) (good : Bool) : State.Runs N C s (s.judge good) := by
  have hstart : Alignment.start.bitPos ≤ 511 := Nat.zero_le _
  unfold State.judge
  dsimp only
  split
  · exact .refl
  · next n hy =>
    split
    · split
      · exact .single (.lock s)
      · next hgoal =>
        simp only [Config.confirmGoal] at hgoal
        exact .single (.sync s _ (fun _ => ⟨hstart, by omega⟩) (by rw [hy]; rfl))
    · exact .single (.sync s _ (fun _ => trivial) (by rw [hy]; rfl))
  · next w hy =>
    split
    · exact .single (.sync s _ (fun h => ⟨hstart, nextFrame_ranged _ _ (hy ▸ h).2⟩) (by rw [hy]; rfl))
    · exact .single (.sync s _ (fun h => ⟨hstart, nextFrame_ranged _ _ (hy ▸ h).2, by omega, by omega⟩)
        (by rw [hy]; rfl))
  · next w bad hy =>
    split
    · exact .single (.sync s _ (fun h => ⟨hstart, nextFrame_ranged _ _ (hy ▸ h).2.1⟩) (by rw [hy]; rfl))
    · split
      · exact .single (.lose s)
      · next hgoal =>
        simp only [Config.badGoal] at hgoal
        exact .single (.sync s _ (fun h => ⟨hstart, nextFrame_ranged _ _ (hy ▸ h).2.1, by omega, by omega⟩)
          (by rw [hy]; rfl))

theorem stateFrameStart_runs (s : State) (tfs : Bool) : State.Runs N C s (s.frameStart tfs) := by
  unfold State.frameStart
  split
  · exact .refl
  · exact (deliver_runs s).trans (judge_runs _ _)

theorem sampleTfs_move (s : State) (level : Bool) : State.Move N C s (s.sampleTfs level) :=
  .watch s _ 0 (Nat.zero_le _)

theorem takeBit_runs (s : State) (tfs tdat : Bool) : State.Runs N C s (s.takeBit tfs tdat) := by
  unfold State.takeBit
  split
  · next hal =>
    have hy : s.trunk.sync = .unlocked := by cases h : s.trunk.sync <;> rw [h] at hal <;> first | rfl | cases hal
    split
    · exact .single (.sync s _ (fun _ => ⟨Nat.zero_le _, Nat.zero_le _⟩) (by rw [hy]; rfl))
    · exact .refl
  · next al hal =>
    split
    · exact stateFrameStart_runs s tfs
    · next hb =>
      simp only [Config.frameBits] at hb
      exact .single (.sync s _ (advance_ranged tfs tdat _ al hal (by omega)) (advance_held tfs tdat _))

theorem frameStartEvent_runs (s : State) (tfs : Bool) : State.Runs N C s (s.frameStartEvent tfs) := by
  unfold State.frameStartEvent
  split
  · exact .refl
  · exact (((State.Move.sync s _ (fillFrame_ranged _) (fillFrame_held _)).runs).tail (sampleTfs_move _ _)).trans
      (stateFrameStart_runs _ _)

theorem tclkLost_runs (s : State) : State.Runs N C s s.tclkLost := by
  have hw : State.Move N C s { s with trunk := { s.trunk with tclkWatch := Config.tclkLimit } } :=
    .watch s s.trunk.tfsWasLow Config.tclkLimit le_rfl
  unfold State.tclkLost
  dsimp only
  split
  · exact hw.runs
  · next hy => exact hw.runs.tail (.sync _ _ (fun _ => trivial) (by dsimp only; rw [hy]; rfl))
  · exact hw.runs.tail (.lose _)
  · exact hw.runs.tail (.lose _)

/-! ### The own step (log entry 2) -/

theorem tickLine_beside (s : State) : State.Runs N C s s.tickLine := by
  have hx : ∀ x, State.Move N C s (s.setExchange x) := fun x => .beside rfl rfl rfl rfl rfl
  unfold State.tickLine
  split
  · split
    · exact (hx _).runs.tail (gapComplete_beside _)
    · exact (hx _).runs
  · split
    · exact (pollSent_beside s).runs
    · exact (hx _).runs
  · split
    · exact (windowExpiry_beside s).runs
    · exact (hx _).runs
  · exact .refl
  · exact .refl
  · split
    · exact (responseSent_beside s).runs
    · exact (hx _).runs
  · exact (hx _).runs

theorem tickWatch_runs (s : State) : State.Runs N C s s.tickWatch := by
  unfold State.tickWatch
  split
  · exact .refl
  · split
    · exact tclkLost_runs s
    · next h =>
      simp only [Config.tclkLimit] at h
      exact .single (.watch s s.trunk.tfsWasLow (s.trunk.tclkWatch + 1) (by omega))

theorem tickTimers_runs (s : State) : State.Runs N C s s.tickTimers := by
  unfold State.tickTimers
  split
  · have h0 : State.Move N C s { s with usPhase := 0 } := .beside rfl rfl rfl rfl rfl
    exact h0.runs.tail (.millisecond _)
  · exact .single (.beside rfl rfl rfl rfl rfl)

theorem ownStep_runs (s : State) (hN : N → s.te.queueOrdered) : State.Runs N True s s.ownStep := by
  unfold State.ownStep
  split
  · exact perform_runs s _ hN fun _ _ _ => trivial
  · exact ((tickTimers_runs s).trans (tickWatch_runs _)).trans (tickLine_beside _)

/-! ### A command executed -/

/-- The command may clear alarm flags (10.5). -/
def clearsAlarms : Instr → Prop
  | .clearAlarms _ => True
  | .softReset _ => True
  | .powerOnReset => True
  | _ => False

/-- Only the code of SOFT_RESET is read as one. -/
theorem parse_ne_softReset (area : Nat) (code : Byte) (fields : List Byte) (h : code.toNat ≠ 0x11) :
    parseCommand area (code :: fields) ≠ .good .softReset := by
  intro hp
  simp only [parseCommand] at hp
  unfold parseFields at hp
  split at hp
  case h_9 =>
    cases fields with
    | nil => cases hp
    | cons count rest =>
      simp only [parseHouseGrant] at hp
      split at hp
      · exact absurd (ranged_good _ _ _ hp).1 nofun
      · cases hp
  case h_5 | h_16 => exact absurd (fields0_good _ _ _ hp).2 nofun
  case h_17 => exact h ‹_›
  case h_1 | h_2 | h_4 | h_6 | h_12 | h_13 | h_14 | h_15 =>
    obtain ⟨_, -, hr⟩ := fields1_good _ _ _ hp
    exact absurd (ranged_good _ _ _ hr).1 nofun
  case h_3 | h_8 =>
    obtain ⟨_, _, -, hr⟩ := fields2_good _ _ _ hp
    exact absurd (ranged_good _ _ _ hr).1 nofun
  case h_7 | h_10 | h_11 =>
    obtain ⟨_, _, _, -, hr⟩ := fields3_good _ _ _ hp
    exact absurd (ranged_good _ _ _ hr).1 nofun
  case h_18 => cases hp

/-- Every command is moves of the part, of which only those of the three that clear alarm flags may clear any. -/
theorem exec_runs (c : Instr) (s u : State) (hN : N → s.te.queueOrdered) (hC : clearsAlarms c → C)
    (h : exec c s = .next u) :
    State.Runs N C s u := by
  have hmanage : ∀ code fields, code.toNat ≠ 0x11 →
      State.Runs N C s (s.manage (code :: fields)) := fun code fields hcode =>
    manage_runs s _ hN fun hp => absurd hp (parse_ne_softReset _ _ _ hcode)
  cases c with
  | powerOnReset => cases h; exact .single (.reset s (hC trivial))
  | writeCommand w =>
    cases h
    split
    · exact writeCommand_runs s _
    · exact .refl
  | writeAlarmEnable w =>
    simp only [exec, execWriteAlarmEnable] at h
    split at h <;> cases h
    · exact .single (.beside rfl rfl rfl rfl rfl)
    · exact .refl
  | clearAlarms w =>
    simp only [exec, execClearAlarms] at h
    split at h <;> cases h
    · exact .single (.clear s _ (hC trivial))
    · exact .refl
  | readSlot f | readLease f | readStation f | readQueue f | readCounts f | readPolicy f | setPolicy f | setQuota f
  | houseGrant f | bar f | unbar f | resize f | evict f | clearLeases f =>
    cases h; exact hmanage _ _ (by decide)
  | pinOn f | pinOff f | revokeSoft f | revokeImmediate f =>
    cases h
    split
    · exact .refl
    · exact hmanage _ _ (by decide)
  | softReset f => cases h; exact manage_runs s _ hN fun _ => hC trivial
  | join hd f | leave hd f | grant hd f | renew hd f | release hd f | attach hd f | detach hd f | querySlot hd f
  | queryLease hd f | listMine hd f | cancel hd f =>
    cases h; exact replied_runs s _ hN
  | idle hd => cases h; exact replied_runs s _ hN
  | unknownKindRequest hd body =>
    cases h
    split
    · exact .refl
    · exact replied_runs s _ hN
  | missReport a => cases h; exact missReport_runs s a hN
  | silenceExpiry a => cases h; exact expire_runs s a hN
  | periodClose r => cases h; exact take_runs s _ hN nofun
  | termExpiry i | endDeadlineExpiry i | coolingEnd i | waitExpiry i => cases h; exact closeWith_runs s _ i hN
  | tfsRecognised tdat => cases h; exact (sampleTfs_move s true).runs.trans (takeBit_runs _ _ _)
  | frameStart tfs => cases h; exact frameStartEvent_runs s tfs
  | windowComplete tfs =>
    cases h
    split
    · exact frameStartEvent_runs s tfs
    · exact .refl
  | tclkLost => cases h; exact tclkLost_runs s
  | poll => cases h; exact (gapComplete_beside s).runs
  | pollSent => cases h; exact (pollSent_beside s).runs
  | replyStart => cases h; exact (startBit_beside s).runs
  | replyWindowExpiry => cases h; exact (windowExpiry_beside s).runs
  | frameEnd chars => cases h; exact (frameEnd_beside s chars).runs
  | thirtyThirdCharacter => cases h; exact (tooLong_beside s).runs
  | responseSent => cases h; exact (responseSent_beside s).runs
  | tclkPeriod tfs tdat => cases h; exact (sampleTfs_move s tfs).runs.trans (takeBit_runs _ _ _)

/-- Every step is moves of the part, once its command has left the queue of commands. -/
theorem step_runs (s u : State) (hN : N → s.te.queueOrdered) (h : step s = .next u) :
    State.Runs N True { s with pending := s.pending.tail } u := by
  unfold step at h
  split at h
  · next hp =>
    cases h
    have hs : { s with pending := s.pending.tail } = s := by rw [hp, List.tail_nil, ← hp]
    rw [hs]
    exact ownStep_runs s hN
  · next c rest hp =>
    rw [hp]
    exact exec_runs c { s with pending := rest } u hN (fun _ => trivial) h

/-- What every move of the part keeps, every run of them keeps. -/
theorem runs_keeps {P : State → Prop} (hP : ∀ s u, State.Move N C s u → P s → P u) {s u : State} (h : State.Runs N C s u)
    (hs : P s) : P u := by
  induction h with
  | refl => exact hs
  | tail _ hm ih => exact hP _ _ hm ih

end Sys2Proof.Machine
end

section
/-! SUPPORT. The invariants that every step keeps: the shape of the tables, the cooling counts, the lease fields, the numbers
of the notices, the map and the leases, the station counts, the names. Each is kept by every move of the tables. -/

namespace Sys2Proof.Machine

set_option Elab.async false

variable {N : Prop} {x : Nat}

/-! ### Slots after a move -/

theorem slot_eq_of_slots_eq {t u : Tables} (h : u.slots = t.slots) (n : Nat) : u.slot n = t.slot n := by
  simp [Tables.slot, h]

theorem slotState?_eq_of_slots_eq {t u : Tables} (h : u.slots = t.slots) (n : Nat) : u.slotState? n = t.slotState? n := by
  simp [Tables.slotState?, slot_eq_of_slots_eq h]

/-- A slot of the stream area is one of the slots of the map. -/
theorem slot_range (t : Tables) (n : Nat) (h : t.slot n ≠ .outside) : 1 ≤ n ∧ n ≤ t.slots.length := by
  by_cases h0 : n = 0
  · simp [Tables.slot, nth?, h0] at h
  · refine ⟨by omega, ?_⟩
    by_contra hlt
    simp [Tables.slot, nth?, h0, show t.slots.length ≤ n - 1 by omega] at h

/-- The state of a slot record. -/
def Slot.state? : Slot → Option SlotState
  | .outside => none
  | .inArea st _ => some st

theorem slotState?_eq (t : Tables) (n : Nat) : t.slotState? n = (t.slot n).state? := by
  unfold Tables.slotState?; cases t.slot n <;> rfl

theorem setActivity_slot (t : Tables) (n m : Nat) (f : Finding) : (t.setActivity n f).slot m =
    if m = n then (match t.slot n with
      | .outside => .outside
      | .inArea st _ => .inArea st f)
    else t.slot m := by
  unfold Tables.setActivity
  cases h : t.slot n with
  | outside => by_cases hm : m = n <;> simp [hm, h]
  | inArea st last =>
    obtain ⟨h1, h2⟩ := slot_range t n (by simp [h])
    by_cases hm : m = n
    · subst hm; simp [setSlot_slot_self _ _ _ h1 h2]
    · simp [hm, setSlot_slot_ne _ _ _ _ hm]

theorem setSlots_slot (ns : List Nat) (v : Slot) (m : Nat) (t : Tables) (h : ∀ n ∈ ns, 1 ≤ n ∧ n ≤ t.slots.length) :
    (t.setSlots ns v).slot m = if m ∈ ns then v else t.slot m := by
  unfold Tables.setSlots
  induction ns generalizing t with
  | nil => simp
  | cons n ns ih =>
    obtain ⟨h1, h2⟩ := h n (by simp)
    rw [List.foldl_cons, ih _ fun k hk => by simpa using h k (by simp [hk])]
    by_cases hm : m = n
    · subst hm; simp [setSlot_slot_self _ _ _ h1 h2]
    · simp [hm, setSlot_slot_ne _ _ _ _ hm]

/-- A change of every slot record that keeps OUTSIDE. -/
theorem slot_map (t : Tables) (f : Slot → Slot) (hf : f .outside = .outside) (n : Nat) :
    ({ t with slots := t.slots.map f } : Tables).slot n = f (t.slot n) := by
  by_cases h0 : n = 0
  · simp [Tables.slot, nth?, h0, hf]
  · cases h : t.slots[n - 1]? <;> simp [Tables.slot, nth?, h0, h, hf]

theorem applyLingerLimit_slot (t : Tables) (limit n : Nat) :
    (t.applyLingerLimit limit).slot n = (t.slot n).barLingering limit :=
  (slot_eq_of_slots_eq (u := t.applyLingerLimit limit) (t := { t with slots := t.slots.map (Slot.barLingering limit) })
    (by simp) n).trans (slot_map t _ rfl n)

theorem slotState?_setSlotState (t : Tables) (n m : Nat) (st : SlotState) : (t.setSlotState n st).slotState? m =
    if m = n then (t.slotState? n).map fun _ => st else t.slotState? m := by
  unfold Tables.slotState?
  rw [setSlotState_slot]
  by_cases hm : m = n
  · subst hm; cases t.slot m <;> simp
  · simp [hm]

theorem slotState?_setSlotStates (t : Tables) (ns : List Nat) (m : Nat) (st : SlotState) :
    (t.setSlotStates ns st).slotState? m = (t.slotState? m).map fun old => if m ∈ ns then st else old := by
  unfold Tables.slotState?
  rw [setSlotStates_slot]
  cases t.slot m <;> simp

@[simp] theorem slotState?_setActivity (t : Tables) (n m : Nat) (f : Finding) :
    (t.setActivity n f).slotState? m = t.slotState? m := by
  unfold Tables.slotState?
  rw [setActivity_slot]
  by_cases hm : m = n
  · subst hm; cases t.slot m <;> simp
  · simp [hm]

theorem slotState?_setSlots (t : Tables) (ns : List Nat) (v : Slot) (m : Nat) (h : ∀ n ∈ ns, 1 ≤ n ∧ n ≤ t.slots.length) :
    (t.setSlots ns v).slotState? m = if m ∈ ns then v.state? else t.slotState? m := by
  rw [slotState?_eq, setSlots_slot ns v m t h, slotState?_eq]
  split <;> rfl

theorem mem_slotsBetween (low high n : Nat) : n ∈ slotsBetween low high ↔ low < n ∧ n ≤ high := by
  simp only [slotsBetween, List.mem_range'_1]; omega

theorem mem_slotNumbers (n : Nat) : n ∈ slotNumbers ↔ 1 ≤ n ∧ n ≤ 63 := by
  simp only [slotNumbers, List.mem_range'_1, Config.slotCount]; omega

theorem mem_addresses (a : Nat) : a ∈ addresses ↔ 1 ≤ a ∧ a ≤ 30 := by
  simp only [addresses, List.mem_range'_1, Config.stationCount]; omega

/-! ### Policy values (10.4) -/

theorem store_value_self (p : Policy) (id v : Nat) (hid : 2 ≤ id ∧ id ≤ 16) (hv : policyValueOk id v = true) :
    (p.store v id).value id = v := by
  obtain ⟨h2, h16⟩ := hid
  rw [policyValueOk, within_iff] at hv
  by_cases hidle : id = 6
  · subst hidle
    exact Nat.mod_eq_of_lt (Nat.lt_succ_of_le hv.2)
  · by_cases hopen : id = 9
    · subst hopen
      have hv' : v ≤ 1 := hv.2
      interval_cases v <;> rfl
    · interval_cases id <;> first | rfl | omega

theorem store_value_other (p : Policy) (id id' v : Nat) (h : id' ≠ id) : (p.store v id).value id' = p.value id' := by
  unfold Policy.store
  split <;> (unfold Policy.value; split <;> first | rfl | omega)

theorem store_inRange (p : Policy) (id v : Nat) (hid : 2 ≤ id ∧ id ≤ 16) (hv : policyValueOk id v = true)
    (hp : p.inRange) : (p.store v id).inRange := by
  intro id' hid'
  by_cases h : id' = id
  · subst h
    rw [store_value_self p id' v hid hv]
    exact (within_iff _ _ _).mp hv
  · rw [store_value_other p id id' v h]
    exact hp id' hid'

theorem setArea_inRange (t : Tables) (area : Nat) (h8 : 8 ≤ area) (h63 : area ≤ 63) (hp : t.policy.inRange) :
    (t.setArea area).policy.inRange := by
  intro id hid
  by_cases h1 : id = 1
  · subst h1; exact ⟨h8, h63⟩
  · have hv : (t.setArea area).policy.value id = t.policy.value id := by
      unfold Policy.value Tables.setArea
      split <;> first | rfl | omega
    rw [hv]
    exact hp id hid

@[simp] theorem store_streamArea (p : Policy) (id v : Nat) : (p.store v id).streamArea = p.streamArea := by
  unfold Policy.store; split <;> rfl

/-! ### The shape of the tables (1.1, 10.4) -/

theorem shaped_of_eq {t u : Tables} (hs : u.slots.length = t.slots.length) (hl : u.leases.length = t.leases.length)
    (ha : u.stations.length = t.stations.length) (hp : u.policy = t.policy)
    (ho : ∀ n, u.slot n = .outside ↔ t.slot n = .outside) (h : t.shaped) : u.shaped := by
  obtain ⟨⟨h63, h48, h30⟩, hr, hsplit⟩ := h
  exact ⟨⟨hs.trans h63, hl.trans h48, ha.trans h30⟩, hp ▸ hr, fun n hn => by rw [ho, hp]; exact hsplit n hn⟩

theorem setSlotStates_outside (t : Tables) (ns : List Nat) (st : SlotState) (n : Nat) :
    (t.setSlotStates ns st).slot n = .outside ↔ t.slot n = .outside := by
  rw [setSlotStates_slot]; cases t.slot n <;> simp

theorem shaped_setPolicy (t : Tables) (id v : Nat) (hid : 2 ≤ id ∧ id ≤ 16) (hv : policyValueOk id v = true)
    (h : t.shaped) : (t.setPolicy id v).tables.shaped := by
  obtain ⟨⟨h63, h48, h30⟩, hr, hsplit⟩ := h
  have hstored : ({ t with policy := t.policy.store v id } : Tables).shaped :=
    ⟨⟨h63, h48, h30⟩, store_inRange _ id v hid hv hr, fun n hn => by
      simpa [Tables.slot] using hsplit n hn⟩
  rw [setPolicy_tables t id v (by omega)]
  split
  · refine shaped_of_eq (by simp) (by simp) (by simp) (by simp) (fun n => ?_) hstored
    rw [applyLingerLimit_slot]
    generalize ({ t with policy := t.policy.store v id } : Tables).slot n = w
    unfold Slot.barLingering
    split
    · split <;> simp
    · rfl
  · exact hstored

theorem shaped_resize (t : Tables) (ns : List Nat) (v : Slot) (area : Nat) (h8 : 8 ≤ area) (h63 : area ≤ 63)
    (hns : ∀ n ∈ ns, 1 ≤ n ∧ n ≤ 63)
    (hin : ∀ n ∈ ns, v = .outside ↔ area < n)
    (hout : ∀ n ∈ slotNumbers, n ∉ ns → (t.policy.streamArea < n ↔ area < n)) (h : t.shaped) :
    ((t.setSlots ns v).setArea area).shaped := by
  obtain ⟨⟨hs, hl, ha⟩, hr, hsplit⟩ := h
  refine ⟨⟨by simpa [Tables.setArea] using hs, by simpa [Tables.setArea] using hl, by simpa [Tables.setArea] using ha⟩,
    setArea_inRange _ area h8 h63 (by simpa using hr), fun n hn => ?_⟩
  show (t.setSlots ns v).slot n = .outside ↔ area < n
  rw [setSlots_slot ns v n t fun k hk => by rw [hs]; exact hns k hk]
  split
  · exact hin n ‹_›
  · rw [hsplit n hn]; exact hout n hn ‹_›

theorem move_shaped {t u : Tables} (hm : Tables.Move N x t u) (h : t.shaped) : u.shaped := by
  cases hm with
  | create i owner slots term idle pinned hg =>
    refine shaped_of_eq (by simp) (by simp) (by simp) (by simp) (fun n => ?_) h
    rw [slot_eq_of_slots_eq (createLease_slots _ _ _), setSlotStates_outside]; rfl
  | vacate i l hl =>
    refine shaped_of_eq (by simp) (by simp) (by simp) (by simp) (fun n => ?_) h
    rw [slot_eq_of_slots_eq (vacate_slots _ _ _), setSlotStates_outside]; rfl
  | slotState n st st' hst _ _ _ =>
    refine shaped_of_eq (by simp) (by simp) (by simp) (by simp) (fun m => ?_) h
    rw [setSlotState_slot]
    split
    · next hmn => subst hmn; cases t.slot m <;> simp
    · rfl
  | activity n f =>
    refine shaped_of_eq (by simp) (by simp) (by simp) (by simp) (fun m => ?_) h
    rw [setActivity_slot]
    split
    · next hmn => subst hmn; cases t.slot m <;> simp
    · rfl
  | policy id v hid hv => exact shaped_setPolicy t id v hid hv h
  | shrink area h8 hlt hs =>
    obtain ⟨-, h63⟩ := inRange_streamArea _ h.2.1
    refine shaped_resize t _ _ area h8 (by omega) (fun n hn => ?_) (fun n hn => ?_) (fun n hn hnot => ?_) h
    · rw [mem_slotsBetween] at hn; omega
    · rw [mem_slotsBetween] at hn; simpa using hn.1
    · rw [mem_slotsBetween] at hnot; omega
  | grow area hlt h63 =>
    obtain ⟨h8, -⟩ := inRange_streamArea _ h.2.1
    refine shaped_resize t _ _ area (by omega) h63 (fun n hn => ?_) (fun n hn => ?_) (fun n hn hnot => ?_) h
    · rw [mem_slotsBetween] at hn; omega
    · rw [mem_slotsBetween] at hn; simpa using hn.2
    · rw [mem_slotsBetween] at hnot; omega
  | dropEntries a =>
    exact shaped_of_eq (by simp [Tables.dropEntriesOf]) (by simp [Tables.dropEntriesOf])
      (by simp [Tables.dropEntriesOf]) (by simp [Tables.dropEntriesOf])
      (fun n => by simp [Tables.dropEntriesOf, Tables.slot]) h
  | unqueue e q _ _ => exact shaped_of_eq (by simp) (by simp) (by simp) (by simp) (fun n => by simp [Tables.slot]) h
  | enqueue a g st _ _ _ =>
    rw [enqueue_eq]
    exact shaped_of_eq (by simp) (by simp) (by simp) (by simp) (fun n => by simp [Tables.slot]) h
  | raise | station | tick | join | relet | mapLeases | requeue | settle =>
    exact shaped_of_eq (t := t) (by simp [Tables.firstJoin, Tables.mapLeases]) (by simp [Tables.firstJoin, Tables.mapLeases])
      (by simp [Tables.firstJoin, Tables.mapLeases]) (by simp [Tables.firstJoin, Tables.mapLeases]) (fun n => Iff.rfl) h

/-! ### Cooling counts (1.5) -/

theorem coolingBounded_iff (t : Tables) : t.coolingBounded ↔
    ∀ n ∈ slotNumbers, ∀ st, t.slotState? n = some st → st.coolBounded t.policy.lingerLimit :=
  ⟨fun h n hn _ hst cool linger hc => h n hn cool linger (hc ▸ hst),
    fun h n hn cool linger hst => h n hn _ hst cool linger rfl⟩

/-- Every slot state of the new map is an old one, or bounded. -/
theorem coolingBounded_of {t u : Tables} (hp : u.policy.lingerLimit = t.policy.lingerLimit)
    (hs : ∀ n ∈ slotNumbers, ∀ st, u.slotState? n = some st →
      t.slotState? n = some st ∨ st.coolBounded t.policy.lingerLimit) (h : t.coolingBounded) : u.coolingBounded := by
  rw [coolingBounded_iff] at h ⊢
  intro n hn st hst
  rw [hp]
  exact (hs n hn st hst).elim (h n hn st) id

theorem store_lingerLimit (p : Policy) (id v : Nat) (h : id ≠ 15) : (p.store v id).lingerLimit = p.lingerLimit := by
  unfold Policy.store; split <;> first | rfl | omega

/-- A LINGER_LIMIT bars the slots it finds at or above it, so every count is below the new limit (R13). -/
theorem coolingBounded_setPolicy (t : Tables) (id v : Nat) (hid : id ≠ 1) (h : t.coolingBounded) :
    (t.setPolicy id v).tables.coolingBounded := by
  rw [setPolicy_tables t id v hid]
  split
  · next h15 =>
    intro n hn cool linger hst
    subst h15
    unfold Tables.slotState? at hst
    rw [applyLingerLimit_slot, show ({ t with policy := t.policy.store v 15 } : Tables).slot n = t.slot n from rfl] at hst
    rw [applyLingerLimit_policy, show (t.policy.store v 15).lingerLimit = v from rfl]
    cases hslot : t.slot n with
    | outside => simp [hslot, Slot.barLingering] at hst
    | inArea st last =>
      cases st with
      | cooling cool' linger' =>
        obtain ⟨h1, h15, -⟩ := h n hn cool' linger' (by simp [Tables.slotState?, hslot])
        by_cases hlim : v ≤ linger'
        · simp [hslot, Slot.barLingering, hlim] at hst
        · simp only [hslot, Slot.barLingering, hlim, if_false, Option.some.injEq, SlotState.cooling.injEq] at hst
          obtain ⟨rfl, rfl⟩ := hst
          exact ⟨h1, h15, by omega⟩
      | free mark | leased i | barred r => simp [hslot, Slot.barLingering] at hst
  · next hne => exact coolingBounded_of (store_lingerLimit _ _ _ hne) (fun n _ st hst => .inl hst) h

theorem move_coolingBounded {t u : Tables} (hm : Tables.Move N x t u) (hs : t.shaped) (h : t.coolingBounded) :
    u.coolingBounded := by
  obtain ⟨⟨h63, -⟩, hr, -⟩ := hs
  cases hm with
  | create i owner slots term idle pinned hg =>
    refine coolingBounded_of (by simp) (fun n _ st hst => ?_) h
    rw [slotState?_eq_of_slots_eq (createLease_slots _ _ _), slotState?_setSlotStates] at hst
    obtain ⟨old, hold, rfl⟩ := Option.map_eq_some_iff.mp hst
    split
    · exact .inr nofun
    · exact .inl hold
  | vacate i l hl =>
    refine coolingBounded_of (by simp) (fun n _ st hst => ?_) h
    rw [slotState?_eq_of_slots_eq (vacate_slots _ _ _), slotState?_setSlotStates] at hst
    obtain ⟨old, hold, rfl⟩ := Option.map_eq_some_iff.mp hst
    split
    · refine .inr ?_
      rintro _ _ ⟨⟩
      obtain ⟨h1, h15⟩ := inRange_coolPeriods _ hr
      exact ⟨h1, h15, (inRange_lingerLimit _ hr).1⟩
    · exact .inl hold
  | slotState n st st' hst _ _ hc =>
    refine coolingBounded_of (by simp) (fun m hm st0 hst0 => ?_) h
    rw [slotState?_setSlotState] at hst0
    split at hst0
    · next hmn =>
      obtain ⟨old, hold, rfl⟩ := Option.map_eq_some_iff.mp hst0
      exact .inr (hc hr ((coolingBounded_iff t).mp h n (hmn ▸ hm) st hst))
    · exact .inl hst0
  | activity n f => exact coolingBounded_of (by simp) (fun m _ st hst => .inl (by simpa using hst)) h
  | policy id v hid hv => exact coolingBounded_setPolicy t id v (by omega) h
  | shrink area _ hlt _ =>
    refine coolingBounded_of (by simp [Tables.setArea]) (fun n _ st hst => ?_) h
    change (t.setSlots _ _).slotState? n = some st at hst
    have hns : ∀ k ∈ slotsBetween area t.policy.streamArea, 1 ≤ k ∧ k ≤ t.slots.length := fun k hk => by
      rw [mem_slotsBetween] at hk
      have := inRange_streamArea _ hr
      omega
    rw [slotState?_setSlots _ _ _ _ hns] at hst
    split at hst
    · cases hst
    · exact .inl hst
  | grow area hlt harea =>
    refine coolingBounded_of (by simp [Tables.setArea]) (fun n _ st hst => ?_) h
    change (t.setSlots _ _).slotState? n = some st at hst
    have hns : ∀ k ∈ slotsBetween t.policy.streamArea area, 1 ≤ k ∧ k ≤ t.slots.length := fun k hk => by
      rw [mem_slotsBetween] at hk; omega
    rw [slotState?_setSlots _ _ _ _ hns] at hst
    split at hst
    · cases hst; exact .inr nofun
    · exact .inl hst
  | unqueue | enqueue | dropEntries =>
    exact coolingBounded_of (by simp [enqueue_eq, Tables.dropEntriesOf])
      (fun n _ st hst => .inl (by simpa [enqueue_eq, Tables.dropEntriesOf, Tables.slotState?, Tables.slot] using hst)) h
  | raise | station | tick | join | relet | mapLeases | requeue | settle =>
    exact coolingBounded_of rfl (fun n _ st hst => .inl hst) h

end Sys2Proof.Machine
end

section
/-! SUPPORT. The invariants over leases, stations and the queue, each kept by every move of the tables. -/

namespace Sys2Proof.Machine

set_option Elab.async false

variable {N : Prop} {x : Nat}

/-! ### Leases after a move -/

theorem canRelet_refl (t : Tables) (l : Lease) : t.CanRelet x l l := ⟨rfl, .inl rfl, fun _ => id, fun _ => id⟩

theorem listenersOk_of_sublist (t : Tables) (l l' : Lease) (hs : l'.listeners.Sublist l.listeners) (ho : l'.owner = l.owner)
    (h : t.listenersOk l) : t.listenersOk l' := by
  obtain ⟨h4, hnd, hown, hp⟩ := h
  exact ⟨hs.length_le.trans h4, hnd.sublist hs, fun hm => hown (ho ▸ hs.subset hm), fun a ha => hp a (hs.subset ha)⟩

theorem lease?_of_leases_eq {t u : Tables} (h : u.leases = t.leases) (j : Nat) : u.lease? j = t.lease? j := by
  simp [Tables.lease?, Tables.entry, h]

theorem freeIndex?_spec (t : Tables) (i : Nat) (h : t.freeIndex? = some i) :
    (1 ≤ i ∧ i ≤ 48) ∧ t.lease? i = none := by
  refine ⟨(mem_leaseIndices i).mp (List.mem_of_find?_eq_some h), ?_⟩
  simpa using List.find?_some h

/-- What a write of an entry leaves to be read: the lease written at its own place, at most. -/
theorem setLease_lease?_cases (t : Tables) (i j : Nat) (l l' : Lease) (h : (t.setLease i l).lease? j = some l') :
    (j = i ∧ l' = l) ∨ t.lease? j = some l' := by
  by_cases hj : j = i
  · subst hj
    by_cases hr : 1 ≤ j ∧ j ≤ t.leases.length
    · left
      rw [Tables.lease?, setLease_entry_self t j l hr.1 hr.2] at h
      exact ⟨rfl, (Option.some.inj h).symm⟩
    · have := lease?_range _ _ _ h
      rw [setLease_length] at this
      exact absurd this hr
  · right
    rwa [Tables.lease?, setLease_entry_ne t i j l hj] at h

/-- Every lease after a move stands for one before it, or has just been granted. -/
theorem move_lease {t u : Tables} (hm : Tables.Move N x t u) (j : Nat) (l' : Lease) (h : u.lease? j = some l') :
    (∃ l, t.lease? j = some l ∧ t.CanRelet x l l') ∨
      ∃ owner slots term idle pinned, t.CanGrant j owner slots ∧ l' = .fresh owner slots term idle pinned := by
  have hsame : u.leases = t.leases → ∃ l, t.lease? j = some l ∧ t.CanRelet x l l' := fun he =>
    ⟨l', lease?_of_leases_eq he j ▸ h, canRelet_refl t l'⟩
  cases hm with
  | create i owner slots term idle pinned hg =>
    rw [lease?_of_leases_eq (createLease_leases _ _ _)] at h
    rcases setLease_lease?_cases t i j _ l' h with ⟨rfl, rfl⟩ | h
    · exact .inr ⟨owner, slots, term, idle, pinned, hg, rfl⟩
    · exact .inl ⟨l', h, canRelet_refl t l'⟩
  | vacate i l hl =>
    rw [lease?_of_leases_eq (vacate_leases _ _ _), freeEntry_lease? t i j l hl] at h
    split at h
    · cases h
    · exact .inl ⟨l', h, canRelet_refl t l'⟩
  | relet i l l0 hl hr =>
    rw [setLease_lease? t i j l l0 hl] at h
    split at h
    · next hj => cases h; exact .inl ⟨l, hj ▸ hl, hr⟩
    · exact .inl ⟨l', h, canRelet_refl t l'⟩
  | mapLeases f hslots howner hlisteners hsound =>
    rw [mapLeases_lease?] at h
    obtain ⟨l, hl, rfl⟩ := Option.map_eq_some_iff.mp h
    exact .inl ⟨l, hl, hslots l, .inl (howner l), fun _ => listenersOk_of_sublist t l _ (hlisteners l) (howner l),
      fun _ => hsound l⟩
  | policy id v hid _ =>
    refine .inl (hsame ?_)
    rw [setPolicy_tables t id v (by omega)]
    split <;> simp
  | raise | station | tick | join | slotState | activity | unqueue | dropEntries | requeue | enqueue | shrink | grow | settle =>
    exact .inl (hsame (by simp [Tables.firstJoin, Tables.dropEntriesOf, enqueue_eq, Tables.setArea]))

/-- Pins and end deadlines (2.2, 2.6). -/
theorem move_leasesSound {t u : Tables} (hm : Tables.Move N x t u) (hr : t.policy.inRange) (h : t.leasesSound) :
    u.leasesSound := by
  intro i l' hl'
  rcases move_lease hm i l' hl' with ⟨l, hl, hc⟩ | ⟨owner, slots, term, idle, pinned, -, rfl⟩
  · exact hc.sound hr (h i l hl)
  · exact sound_of_active _ rfl

/-! ### Stations after a move -/

/-- Writing the place of a present station. -/
theorem setStation_station? (t : Tables) (a b : Nat) (st : Station) (v : Option Station) (h : t.station? a = some st) :
    (t.setStation a v).station? b = if b = a then v else t.station? b := by
  obtain ⟨h1, h2⟩ := station?_isSome_range t a st h
  split
  · subst b; exact setStation_station?_self t a v h1 h2
  · exact setStation_station?_ne t a b v ‹_›

/-- A write can only be read at its own address, if that has a place. -/
theorem setStation_station?_cases (t : Tables) (a b : Nat) (v : Option Station) :
    (t.setStation a v).station? b = t.station? b ∨ (b = a ∧ (t.setStation a v).station? b = v) := by
  by_cases hb : b = a
  · subst hb
    by_cases hr : 1 ≤ b ∧ b ≤ t.stations.length
    · exact .inr ⟨rfl, setStation_station?_self t b v hr.1 hr.2⟩
    · left
      unfold Tables.station? Tables.setStation
      rw [nth?_setNth_past _ _ _ _ (by omega)]
  · exact .inl (setStation_station?_ne t a b v hb)

theorem station?_of_stations_eq {t u : Tables} (h : u.stations = t.stations) (a : Nat) : u.station? a = t.station? a := by
  simp [Tables.station?, h]

theorem tick_station? (t : Tables) (a : Nat) :
    ({ t with stations := t.stations.map (Option.map Station.tickMs) } : Tables).station? a =
      (t.station? a).map Station.tickMs := by
  by_cases h0 : a = 0
  · simp [Tables.station?, nth?, h0]
  · cases h : t.stations[a - 1]? <;> simp [Tables.station?, nth?, h0, h]

theorem tickMs_keeps (st : Station) : st.keeps st.tickMs := by
  unfold Station.tickMs
  split <;> exact ⟨rfl, rfl, rfl, id⟩

/-- Every station after a move was there before with its notices as well numbered, or has joined without any. -/
theorem move_station {t u : Tables} (hm : Tables.Move N x t u) (b : Nat) (st' : Station) (h : u.station? b = some st') :
    (∃ st, t.station? b = some st ∧ (st.noticesNumbered → st'.noticesNumbered)) ∨ st'.notices = [] := by
  have hsame : u.stations = t.stations → ∃ st, t.station? b = some st ∧ (st.noticesNumbered → st'.noticesNumbered) :=
    fun he => ⟨st', station?_of_stations_eq he b ▸ h, id⟩
  have hmodify : ∀ (v : Tables) a (f : Station → Station), u = v.modifyStation a f → v.stations = t.stations →
      (∀ st : Station, st.noticesNumbered → (f st).noticesNumbered) →
      ∃ st, t.station? b = some st ∧ (st.noticesNumbered → st'.noticesNumbered) := by
    intro v a f hu hv hf
    rw [hu, modifyStation_station?] at h
    split at h
    · next hb =>
      obtain ⟨st, hst, rfl⟩ := Option.map_eq_some_iff.mp h
      exact ⟨st, by rw [hb, ← station?_of_stations_eq hv]; exact hst, hf st⟩
    · exact ⟨st', by rw [← station?_of_stations_eq hv]; exact h, id⟩
  cases hm with
  | station a st0 st1 h0 hk =>
    rw [setStation_station? t a b st0 _ h0] at h
    split at h
    · next hb => cases h; exact .inl ⟨st0, hb ▸ h0, hk.2.2.2⟩
    · exact .inl ⟨st', h, id⟩
  | tick =>
    rw [tick_station?] at h
    obtain ⟨st, hst, rfl⟩ := Option.map_eq_some_iff.mp h
    exact .inl ⟨st, hst, (tickMs_keeps st).2.2.2⟩
  | join a tag seq _ =>
    rcases setStation_station?_cases t a b (some (.first t.policy.defaultQuota tag seq)) with he | ⟨-, he⟩
    · exact .inl ⟨st', he ▸ h, id⟩
    · right
      rw [Tables.firstJoin, he] at h
      cases h
      rfl
  | create i owner slots term idle pinned _ => exact .inl (hmodify _ _ _ rfl (by simp) fun _ => id)
  | vacate i l _ => exact .inl (hmodify _ _ _ rfl (by simp) fun _ => id)
  | unqueue e q _ _ => exact .inl (hmodify _ _ _ rfl rfl fun _ => id)
  | dropEntries a => exact .inl (hmodify _ _ _ rfl rfl fun _ => id)
  | enqueue a g st _ _ _ => exact .inl (hmodify _ _ _ rfl rfl fun _ => id)
  | policy id v hid _ =>
    refine .inl (hsame ?_)
    rw [setPolicy_tables t id v (by omega)]
    split <;> simp
  | raise | relet | mapLeases | slotState | activity | requeue | shrink | grow | settle =>
    exact .inl (hsame (by simp [Tables.setArea, Tables.mapLeases]))

theorem numbered_of_nil (st : Station) (h : st.notices = []) : st.noticesNumbered := by
  simp [Station.noticesNumbered, h]

theorem move_noticesNumbered {t u : Tables} (hm : Tables.Move N x t u) (h : t.noticesNumbered) : u.noticesNumbered := by
  intro a ha st' hst'
  rcases move_station hm a st' hst' with ⟨st, hst, hk⟩ | hnil
  · exact hk (h a ha st hst)
  · exact numbered_of_nil st' hnil

/-- A present station stays present through every move. -/
theorem move_present {t u : Tables} (hm : Tables.Move N x t u) (b : Nat) (h : (t.station? b).isSome) :
    (u.station? b).isSome := by
  have hsame : u.stations = t.stations → (u.station? b).isSome := fun he => by rwa [station?_of_stations_eq he]
  have hmodify : ∀ (v : Tables) a f, v.stations = t.stations → ((v.modifyStation a f).station? b).isSome := by
    intro v a f hv
    rw [modifyStation_station?, station?_of_stations_eq hv, station?_of_stations_eq hv]
    split
    · next hb => rw [Option.isSome_map, ← hb]; exact h
    · exact h
  cases hm with
  | station a st0 st1 h0 hk =>
    rw [setStation_station? t a b st0 _ h0]
    split
    · rfl
    · exact h
  | tick => rw [tick_station?, Option.isSome_map]; exact h
  | join a tag seq _ =>
    rcases setStation_station?_cases t a b (some (.first t.policy.defaultQuota tag seq)) with he | ⟨-, he⟩ <;>
      rw [Tables.firstJoin, he]
    · exact h
    · rfl
  | create i owner slots term idle pinned _ => exact hmodify _ _ _ (by simp)
  | vacate i l _ => exact hmodify _ _ _ (by simp)
  | unqueue e q _ _ => exact hmodify _ _ _ rfl
  | dropEntries a => exact hmodify _ _ _ rfl
  | enqueue a g st _ _ _ => exact hmodify _ _ _ rfl
  | policy id v hid _ =>
    refine hsame ?_
    rw [setPolicy_tables t id v (by omega)]
    split <;> simp
  | raise | relet | mapLeases | slotState | activity | requeue | shrink | grow | settle =>
    exact hsame (by simp [Tables.setArea, Tables.mapLeases])

/-! ### Names present (2.7, 4.2) -/

/-- Every pending entry after a move names a station that had one before, or a present one. -/
theorem move_queue_station {t u : Tables} (hm : Tables.Move N x t u) (e : PendingEntry) (h : e ∈ u.queue) :
    (∃ e0 ∈ t.queue, e0.station = e.station) ∨ (t.station? e.station).isSome := by
  have hsame : u.queue = t.queue → ∃ e0 ∈ t.queue, e0.station = e.station := fun he => ⟨e, he ▸ h, rfl⟩
  cases hm with
  | unqueue e' q hs _ =>
    rw [modifyStation_queue] at h
    exact .inl ⟨e, hs.subset h, rfl⟩
  | dropEntries a =>
    rw [Tables.dropEntriesOf, modifyStation_queue] at h
    exact .inl ⟨e, (List.mem_filter.mp h).1, rfl⟩
  | requeue q hq =>
    have hmap := sameRequest_map PendingEntry.station (fun _ _ h => h.2.1) hq
    have he : e.station ∈ t.queue.map PendingEntry.station := hmap ▸ List.mem_map_of_mem h
    exact .inl (List.mem_map.mp he)
  | enqueue a g st hst _ _ =>
    rw [enqueue_eq, modifyStation_queue] at h
    rcases List.mem_cons.mp ((insertByPriority_perm _ _).subset h) with rfl | h
    · exact .inr (by rw [show (t.newEntry a g).station = a from rfl, hst]; rfl)
    · exact .inl ⟨e, h, rfl⟩
  | policy id v hid _ =>
    refine .inl (hsame ?_)
    rw [setPolicy_tables t id v (by omega)]
    split <;> simp
  | raise | station | tick | join | create | vacate | relet | mapLeases | slotState | activity | shrink | grow | settle =>
    exact .inl (hsame (by simp [Tables.firstJoin, Tables.mapLeases, Tables.setArea]))

theorem move_namesPresent {t u : Tables} (hm : Tables.Move N x t u) (h30 : t.stations.length = 30) (h : t.namesPresent) :
    u.namesPresent := by
  obtain ⟨hleases, hqueue⟩ := h
  have hup : ∀ a, (t.station? a).isSome → (u.station? a).isSome := move_present hm
  refine ⟨fun i l' hl' => ?_, fun e he => hup _ ?_⟩
  · have hok : (l'.owner = Config.house ∨ (t.station? l'.owner).isSome) ∧ t.listenersOk l' := by
      rcases move_lease hm i l' hl' with ⟨l, hl, hc⟩ | ⟨owner, slots, term, idle, pinned, hg, rfl⟩
      · obtain ⟨ho, hlis⟩ := hleases i l hl
        exact ⟨hc.owner.elim (fun he => he ▸ ho) fun he => .inl he.2, hc.listeners h30 hlis⟩
      · exact ⟨hg.owner, Nat.zero_le _, List.nodup_nil, List.not_mem_nil, nofun⟩
    obtain ⟨ho, h4, hnd, hown, hp⟩ := hok
    exact ⟨ho.imp_right (hup _), h4, hnd, hown, fun a ha => hup a (hp a ha)⟩
  · rcases move_queue_station hm e he with ⟨e0, he0, hs⟩ | hs
    · exact hs ▸ hqueue e0 he0
    · exact hs

/-! ### The map and the leases (1.2) -/

theorem mapMatches_of_eq {t u : Tables} (hs : u.slots = t.slots) (hp : u.policy.streamArea = t.policy.streamArea)
    (hl : ∀ i l', u.lease? i = some l' → ∃ l, t.lease? i = some l ∧ l'.slots = l.slots)
    (hl' : ∀ i l, t.lease? i = some l → ∃ l', u.lease? i = some l' ∧ l'.slots = l.slots) (h : t.mapMatchesLeases) :
    u.mapMatchesLeases := by
  obtain ⟨hmap, hslots⟩ := h
  refine ⟨fun n hn i => ?_, fun i l' h' => ?_⟩
  · rw [slotState?_eq_of_slots_eq hs, hmap n hn]
    constructor
    · rintro ⟨l, h1, h2⟩
      obtain ⟨l', h3, h4⟩ := hl' i l h1
      exact ⟨l', h3, h4 ▸ h2⟩
    · rintro ⟨l', h1, h2⟩
      obtain ⟨l, h3, h4⟩ := hl i l' h1
      exact ⟨l, h3, h4 ▸ h2⟩
  · obtain ⟨l, h1, h2⟩ := hl i l' h'
    rw [h2, hp]
    exact hslots i l h1

/-- The slot map may change where no slot is in a lease. -/
theorem mapMatches_of_vacant {t u : Tables} (hl : u.leases = t.leases)
    (hs : ∀ n ∈ slotNumbers, ∀ i, u.slotState? n = some (.leased i) ↔ t.slotState? n = some (.leased i))
    (hp : ∀ i l, t.lease? i = some l → ∀ n ∈ l.slots, n ≤ t.policy.streamArea → n ≤ u.policy.streamArea)
    (h : t.mapMatchesLeases) : u.mapMatchesLeases := by
  obtain ⟨hmap, hslots⟩ := h
  refine ⟨fun n hn i => by rw [hs n hn, hmap n hn, lease?_of_leases_eq hl], fun i l h' => ?_⟩
  rw [lease?_of_leases_eq hl] at h'
  obtain ⟨h1, h8, hasc, hin⟩ := hslots i l h'
  exact ⟨h1, h8, hasc, fun n hn => ⟨(hin n hn).1, hp i l h' n hn (hin n hn).2⟩⟩

theorem mapMatches_create (t : Tables) (i owner : Nat) (slots : List Nat) (term : Option Nat) (idle : Nat) (pinned : Bool)
    (hg : t.CanGrant i owner slots) (hs : t.shaped) (hq : t.queueOrdered) (h : t.mapMatchesLeases) :
    (t.createLease i (.fresh owner slots term idle pinned)).mapMatchesLeases := by
  obtain ⟨⟨-, h48, -⟩, hr, -⟩ := hs
  obtain ⟨hmap, hslots⟩ := h
  obtain ⟨⟨hi1, hi48⟩, hnone⟩ := freeIndex?_spec t i hg.index
  have hlease : ∀ j, (t.createLease i (.fresh owner slots term idle pinned)).lease? j =
      if j = i then some (.fresh owner slots term idle pinned) else t.lease? j := by
    intro j
    rw [lease?_of_leases_eq (createLease_leases _ _ _)]
    by_cases hj : j = i
    · subst hj; simp [Tables.lease?, setLease_entry_self t j _ hi1 (by omega)]
    · simp [Tables.lease?, hj, setLease_entry_ne t i j _ hj]
  have hfree : ∀ n ∈ slots, ∃ mark, t.slotState? n = some (.free mark) := by
    intro n hn
    have := hg.free n hn
    unfold Tables.isFree at this
    split at this
    · exact ⟨_, ‹_›⟩
    · cases this
  refine ⟨fun n hn j => ?_, fun j l hl => ?_⟩
  · rw [slotState?_eq_of_slots_eq (createLease_slots _ _ _), slotState?_setSlotStates, hlease,
      slotState?_eq_of_slots_eq (setLease_slots t i _)]
    have hold := hmap n hn j
    by_cases hmem : n ∈ slots
    · obtain ⟨mark, hmark⟩ := hfree n hmem
      have hnot : ¬ ∃ l, t.lease? j = some l ∧ n ∈ l.slots := by simp [← hold, hmark]
      by_cases hj : j = i
      · simp [hj, hmark, Lease.fresh, hmem]
      · simpa [hj, Ne.symm hj, hmark, Lease.fresh, hmem] using hnot
    · by_cases hj : j = i
      · subst hj
        have : t.slotState? n ≠ some (.leased j) := by simp [hold, hnone]
        simpa [Lease.fresh, hmem] using this
      · simpa [Lease.fresh, hmem, hj] using hold
  · rw [hlease] at hl
    rw [createLease_policy]
    split at hl
    · cases hl
      exact ⟨(hg.count hq).1, (hg.count hq).2, hg.ascending, hg.inArea⟩
    · exact hslots j l hl

theorem mapMatches_vacate (t : Tables) (i : Nat) (l : Lease) (hl : t.lease? i = some l) (h : t.mapMatchesLeases) :
    (t.vacate i l).mapMatchesLeases := by
  obtain ⟨hmap, hslots⟩ := h
  have hlease : ∀ j, (t.vacate i l).lease? j = if j = i then none else t.lease? j := fun j => by
    rw [lease?_of_leases_eq (vacate_leases _ _ _), freeEntry_lease? t i j l hl]
  refine ⟨fun n hn j => ?_, fun j l' hl' => ?_⟩
  · rw [slotState?_eq_of_slots_eq (vacate_slots _ _ _), slotState?_setSlotStates,
      slotState?_eq_of_slots_eq (freeEntry_slots t i), hlease]
    have hold := hmap n hn
    by_cases hmem : n ∈ l.slots
    · have hi : t.slotState? n = some (.leased i) := (hold i).mpr ⟨l, hl, hmem⟩
      have hne : ∀ j, j ≠ i → ¬ ∃ l', t.lease? j = some l' ∧ n ∈ l'.slots := fun j hj hex => by
        rw [← hold j, hi] at hex
        exact hj (by simpa using hex.symm)
      by_cases hj : j = i
      · simp [hj, hi, hmem]
      · simpa [hj, hi, hmem] using hne j hj
    · by_cases hj : j = i
      · subst hj
        have : t.slotState? n ≠ some (.leased j) := fun he => by
          obtain ⟨l', h1, h2⟩ := (hold j).mp he
          rw [hl] at h1
          cases h1
          exact hmem h2
        simpa [hmem] using this
      · simpa [hmem, hj] using hold j
  · rw [hlease] at hl'
    rw [vacate_policy]
    split at hl'
    · cases hl'
    · exact hslots j l' hl'

theorem barLingering_leased (limit : Nat) (v : Slot) (i : Nat) :
    (v.barLingering limit).state? = some (.leased i) ↔ v.state? = some (.leased i) := by
  cases v with
  | outside => rfl
  | inArea st last =>
    cases st with
    | cooling cool linger =>
      simp only [Slot.barLingering]
      split <;> simp [Slot.state?]
    | free | leased | barred => rfl

theorem move_mapMatches {t u : Tables} (hm : Tables.Move N x t u) (hs : t.shaped) (hq : t.queueOrdered)
    (h : t.mapMatchesLeases) : u.mapMatchesLeases := by
  obtain ⟨⟨h63, -⟩, hr, hsplit⟩ := id hs
  obtain ⟨h8, h63'⟩ := inRange_streamArea _ hr
  cases hm with
  | create i owner slots term idle pinned hg => exact mapMatches_create t i owner slots term idle pinned hg hs hq h
  | vacate i l hl => exact mapMatches_vacate t i l hl h
  | relet i l l' hl hc =>
    refine mapMatches_of_eq (t := t) rfl rfl (fun j l0 h0 => ?_) (fun j l0 h0 => ?_) h
    · rw [setLease_lease? t i j l l' hl] at h0
      split at h0
      · next hj => cases h0; exact ⟨l, hj ▸ hl, hc.slots⟩
      · exact ⟨l0, h0, rfl⟩
    · rw [setLease_lease? t i j l l' hl]
      split
      · next hj =>
        rw [hj, hl] at h0
        cases h0
        exact ⟨l', rfl, hc.slots⟩
      · exact ⟨l0, h0, rfl⟩
  | mapLeases f hslots _ _ _ =>
    refine mapMatches_of_eq (t := t) rfl rfl (fun j l0 h0 => ?_) (fun j l0 h0 => ?_) h
    · rw [mapLeases_lease?] at h0
      obtain ⟨l, hl, rfl⟩ := Option.map_eq_some_iff.mp h0
      exact ⟨l, hl, hslots l⟩
    · exact ⟨f l0, by rw [mapLeases_lease?, h0]; rfl, hslots l0⟩
  | slotState n st st' hst hv hv' _ =>
    refine mapMatches_of_vacant (by simp) (fun m _ i => ?_) (fun _ _ _ _ _ hle => by simpa using hle) h
    rw [slotState?_setSlotState]
    split
    · next hmn =>
      rw [hmn, hst]
      exact ⟨fun he => absurd (Option.some.inj he) (hv' i), fun he => absurd (Option.some.inj he) (hv i)⟩
    · rfl
  | activity n f =>
    exact mapMatches_of_vacant (by simp) (fun m _ i => by simp) (fun _ _ _ _ _ hle => by simpa using hle) h
  | policy id v hid _ =>
    rw [setPolicy_tables t id v (by omega)]
    split
    · refine mapMatches_of_vacant (by simp) (fun m _ i => ?_) (fun _ _ _ _ _ hle => by simpa using hle) h
      rw [slotState?_eq, applyLingerLimit_slot, barLingering_leased, slotState?_eq]
      rfl
    · exact mapMatches_of_vacant (t := t) rfl (fun _ _ _ => Iff.rfl) (fun _ _ _ _ _ hle => by simpa using hle) h
  | shrink area _ hlt hstop =>
    have hns : ∀ k ∈ slotsBetween area t.policy.streamArea, 1 ≤ k ∧ k ≤ t.slots.length := fun k hk => by
      rw [mem_slotsBetween] at hk; omega
    have hnot : ∀ n ∈ slotsBetween area t.policy.streamArea, ∀ i, t.slotState? n ≠ some (.leased i) := fun n hn i he => by
      have := hstop n hn
      rw [slotState?_eq] at he
      cases hslot : t.slot n with
      | outside => simp [hslot, Slot.state?] at he
      | inArea st last =>
        rw [hslot] at he this
        obtain rfl := Option.some.inj he
        cases this
    refine mapMatches_of_vacant (by simp [Tables.setArea]) (fun n _ i => ?_) (fun i l hl n hn hle => ?_) h
    · show (t.setSlots _ _).slotState? n = _ ↔ _
      rw [slotState?_setSlots _ _ _ _ hns]
      split
      · next hmem => exact ⟨nofun, fun he => absurd he (hnot n hmem i)⟩
      · rfl
    · show n ≤ area
      by_contra hgt
      obtain ⟨-, -, -, hin⟩ := h.2 i l hl
      refine hnot n ((mem_slotsBetween _ _ _).mpr ⟨by omega, hle⟩) i ((h.1 n ?_ i).mpr ⟨l, hl, hn⟩)
      exact (mem_slotNumbers n).mpr ⟨(hin n hn).1, by omega⟩
  | grow area hlt h63a =>
    have hns : ∀ k ∈ slotsBetween t.policy.streamArea area, 1 ≤ k ∧ k ≤ t.slots.length := fun k hk => by
      rw [mem_slotsBetween] at hk; omega
    refine mapMatches_of_vacant (by simp [Tables.setArea]) (fun n hn i => ?_) (fun i l hl n hn hle => ?_) h
    · show (t.setSlots _ _).slotState? n = _ ↔ _
      rw [slotState?_setSlots _ _ _ _ hns]
      split
      · next hmem =>
        have ho : t.slot n = .outside := (hsplit n hn).mpr ((mem_slotsBetween _ _ _).mp hmem).1
        rw [slotState?_eq, ho]
        exact ⟨nofun, nofun⟩
      · rfl
    · show n ≤ area
      omega
  | unqueue | dropEntries | enqueue =>
    exact mapMatches_of_vacant (by simp [enqueue_eq, Tables.dropEntriesOf])
      (fun n _ i => by simp [enqueue_eq, Tables.dropEntriesOf, slotState?_eq, Tables.slot])
      (fun _ _ _ _ _ hle => by simpa [enqueue_eq, Tables.dropEntriesOf] using hle) h
  | raise | station | tick | join | requeue | settle =>
    exact mapMatches_of_vacant (t := t) rfl (fun _ _ _ => Iff.rfl) (fun _ _ _ _ _ hle => hle) h

end Sys2Proof.Machine
end

section
/-! SUPPORT. The station counts (4.2): each equals what it counts, through every move of the tables. -/

namespace Sys2Proof.Machine

set_option Elab.async false

variable {N : Prop} {x : Nat}

/-! ### What the counts count -/

/-- The slots an entry gives to an address. -/
def LeaseEntry.slotsOf (a : Nat) (e : LeaseEntry) : Nat :=
  (e.lease.filter fun l => l.owner == a).elim 0 fun l => l.slots.length

/-- The leases an entry gives to an address: 1 or none. -/
def LeaseEntry.leasesOf (a : Nat) (e : LeaseEntry) : Nat :=
  (e.lease.filter fun l => l.owner == a).elim 0 fun _ => 1

/-- The held slots, the leases and the pending entries of an address. -/
def Tables.tally (t : Tables) (a : Nat) : Nat × Nat × Nat :=
  ((t.leases.map (LeaseEntry.slotsOf a)).sum, (t.leases.map (LeaseEntry.leasesOf a)).sum,
    t.queue.countP fun e => e.station == a)

/-- The counts a station's entry holds. -/
def Station.tally (st : Station) : Nat × Nat × Nat := (st.held, st.leaseCount, st.queued)

/-- The counts are true of every station but `x`, which is being removed. -/
def Tables.countsTrueBut (t : Tables) (x : Nat) : Prop :=
  ∀ a ∈ addresses, a ≠ x → ∀ st, t.station? a = some st → st.tally = t.tally a ∧ st.queued ≤ 2

theorem leasesOf_tally (t : Tables) (a : Nat) :
    ((t.leasesOf a).map fun l => l.slots.length).sum = (t.leases.map (LeaseEntry.slotsOf a)).sum ∧
      (t.leasesOf a).length = (t.leases.map (LeaseEntry.leasesOf a)).sum := by
  unfold Tables.leasesOf
  generalize t.leases = es
  induction es with
  | nil => simp
  | cons e es ih =>
    obtain ⟨epoch, lease⟩ := e
    cases lease with
    | none => simpa [LeaseEntry.slotsOf, LeaseEntry.leasesOf] using ih
    | some l =>
      by_cases ho : l.owner = a
      · simp [LeaseEntry.slotsOf, LeaseEntry.leasesOf, Option.filter, ho, ih.1, ih.2, Nat.add_comm]
      · simpa [LeaseEntry.slotsOf, LeaseEntry.leasesOf, Option.filter, ho] using ih

theorem countsTrue_iff (t : Tables) : t.countsTrue ↔ t.countsTrueBut 0 := by
  refine forall₂_congr fun a ha => ?_
  have h0 : a ≠ 0 := by rw [mem_addresses] at ha; omega
  rw [imp_iff_right h0]
  refine forall₂_congr fun st _ => ?_
  rw [Station.tally, Tables.tally, (leasesOf_tally t a).1, (leasesOf_tally t a).2, Prod.mk.injEq, Prod.mk.injEq,
    List.countP_eq_length_filter]
  tauto

/-! ### Entries written -/

/-- A write replaces what one entry counts. -/
theorem sum_map_setNth {α : Type} (w : α → Nat) (es : List α) (i : Nat) (v old : α) (h : nth? es i = some old) :
    ((setNth es i v).map w).sum + w old = (es.map w).sum + w v := by
  cases i with
  | zero => cases h
  | succ k =>
    rw [nth?_succ] at h
    simp only [setNth, Nat.add_one_ne_zero, if_false, Nat.add_sub_cancel]
    induction es generalizing k with
    | nil => cases h
    | cons e es ih =>
      cases k with
      | zero => cases h; simp; omega
      | succ k => have := ih k h; simp at this ⊢; omega

theorem nth?_of_lease? (t : Tables) (i : Nat) (l : Lease) (h : t.lease? i = some l) :
    nth? t.leases i = some ⟨(t.entry i).epoch, some l⟩ := by
  unfold Tables.lease? at h
  cases hn : nth? t.leases i with
  | none => simp [Tables.entry, hn] at h
  | some e =>
    have he : t.entry i = e := by simp [Tables.entry, hn]
    rw [he] at h ⊢
    rw [← h]

theorem nth?_of_free (t : Tables) (i : Nat) (h1 : 1 ≤ i) (h2 : i ≤ t.leases.length) (h : t.lease? i = none) :
    nth? t.leases i = some ⟨(t.entry i).epoch, none⟩ := by
  unfold Tables.lease? at h
  have hlt : i - 1 < t.leases.length := by omega
  have hn : nth? t.leases i = some t.leases[i - 1] := by simp [nth?, show i ≠ 0 by omega, hlt]
  have he : t.entry i = t.leases[i - 1] := by simp [Tables.entry, hn]
  rw [hn, ← he]
  rw [show t.entry i = ⟨(t.entry i).epoch, (t.entry i).lease⟩ from rfl, h]

@[simp] theorem slotsOf_none (a : Nat) (epoch : BitVec 4) : LeaseEntry.slotsOf a ⟨epoch, none⟩ = 0 := rfl
@[simp] theorem leasesOf_none (a : Nat) (epoch : BitVec 4) : LeaseEntry.leasesOf a ⟨epoch, none⟩ = 0 := rfl

theorem slotsOf_some (a : Nat) (epoch : BitVec 4) (l : Lease) :
    LeaseEntry.slotsOf a ⟨epoch, some l⟩ = if l.owner = a then l.slots.length else 0 := by
  by_cases h : l.owner = a <;> simp [LeaseEntry.slotsOf, Option.filter, h]

theorem leasesOf_some (a : Nat) (epoch : BitVec 4) (l : Lease) :
    LeaseEntry.leasesOf a ⟨epoch, some l⟩ = if l.owner = a then 1 else 0 := by
  by_cases h : l.owner = a <;> simp [LeaseEntry.leasesOf, Option.filter, h]

/-! ### Moves that leave what is counted alone -/

theorem countsTrueBut_of {t u : Tables} (ht : ∀ a ∈ addresses, a ≠ x → u.tally a = t.tally a)
    (hs : ∀ a st', u.station? a = some st' → ∃ st, t.station? a = some st ∧ st'.tally = st.tally)
    (h : t.countsTrueBut x) : u.countsTrueBut x := by
  intro a ha hx st' hst'
  obtain ⟨st, hst, hk⟩ := hs a st' hst'
  obtain ⟨h1, h2⟩ := h a ha hx st hst
  exact ⟨hk.trans (h1.trans (ht a ha hx).symm), by
    rwa [show st'.queued = st.queued from congrArg (fun p => p.2.2) hk]⟩

theorem countsTrueBut_of_eq {t u : Tables} (hl : u.leases = t.leases) (hq : u.queue = t.queue)
    (hs : u.stations = t.stations) (h : t.countsTrueBut x) : u.countsTrueBut x :=
  countsTrueBut_of (fun a _ _ => by simp [Tables.tally, hl, hq])
    (fun a st' h' => ⟨st', station?_of_stations_eq hs a ▸ h', rfl⟩) h

theorem keeps_tally {st st' : Station} (h : st.keeps st') : st'.tally = st.tally := by
  obtain ⟨h1, h2, h3, -⟩ := h
  simp [Station.tally, h1, h2, h3]

theorem relet_tally (t : Tables) (i a : Nat) (l l' : Lease) (hl : t.lease? i = some l) (hc : t.CanRelet x l l')
    (ha : a ∈ addresses) (hx : a ≠ x) : (t.setLease i l').tally a = t.tally a := by
  have hown : l'.owner = a ↔ l.owner = a := by
    rcases hc.owner with ho | ⟨ho, hh⟩
    · rw [ho]
    · rw [mem_addresses] at ha
      rw [hh, ho]
      simp only [Config.house]
      omega
  have hs := sum_map_setNth (LeaseEntry.slotsOf a) t.leases i ⟨(t.entry i).epoch, some l'⟩ _ (nth?_of_lease? t i l hl)
  have hn := sum_map_setNth (LeaseEntry.leasesOf a) t.leases i ⟨(t.entry i).epoch, some l'⟩ _ (nth?_of_lease? t i l hl)
  simp only [slotsOf_some, leasesOf_some, hown, hc.slots, Nat.add_right_cancel_iff] at hs hn
  simp only [Tables.tally, Tables.setLease, hs, hn]

theorem mapLeases_tally (t : Tables) (f : Lease → Lease) (hslots : ∀ l, (f l).slots = l.slots)
    (howner : ∀ l, (f l).owner = l.owner) (a : Nat) : (t.mapLeases f).tally a = t.tally a := by
  have h : ∀ e : LeaseEntry, LeaseEntry.slotsOf a { e with lease := e.lease.map f } = LeaseEntry.slotsOf a e ∧
      LeaseEntry.leasesOf a { e with lease := e.lease.map f } = LeaseEntry.leasesOf a e := by
    rintro ⟨epoch, lease⟩
    cases lease with
    | none => exact ⟨rfl, rfl⟩
    | some l => simp [slotsOf_some, leasesOf_some, hslots, howner]
  simp [Tables.tally, Tables.mapLeases, Function.comp_def, h]

/-! ### Moves that change what is counted -/

theorem countsTrueBut_create (t : Tables) (i owner : Nat) (slots : List Nat) (term : Option Nat) (idle : Nat)
    (pinned : Bool) (hg : t.CanGrant i owner slots) (h48 : t.leases.length = 48) (h : t.countsTrueBut x) :
    (t.createLease i (.fresh owner slots term idle pinned)).countsTrueBut x := by
  obtain ⟨⟨hi1, hi48⟩, hnone⟩ := freeIndex?_spec t i hg.index
  intro a ha hx st' hst'
  have hn := nth?_of_free t i hi1 (by omega) hnone
  have hs := sum_map_setNth (LeaseEntry.slotsOf a) t.leases i
    ⟨(t.entry i).epoch, some (.fresh owner slots term idle pinned)⟩ _ hn
  have hc := sum_map_setNth (LeaseEntry.leasesOf a) t.leases i
    ⟨(t.entry i).epoch, some (.fresh owner slots term idle pinned)⟩ _ hn
  simp only [slotsOf_some, leasesOf_some, slotsOf_none, leasesOf_none, Nat.add_zero] at hs hc
  rw [createLease_station?] at hst'
  simp only [Station.tally, Tables.tally, createLease_leases, createLease_queue, Tables.setLease, hs, hc]
  split at hst'
  · next hown =>
    replace hown : a = owner := hown
    obtain ⟨st, hst, rfl⟩ := Option.map_eq_some_iff.mp hst'
    obtain ⟨htal, h2⟩ := h a ha hx st (by rw [hown]; exact hst)
    simp only [Station.tally, Tables.tally, Prod.mk.injEq] at htal
    obtain ⟨h1, h3, h4⟩ := htal
    exact ⟨by simp [Station.addLease, Lease.fresh, hown ▸ h1, hown ▸ h3, hown ▸ h4, hown], h2⟩
  · next hown =>
    replace hown : ¬ (Lease.fresh owner slots term idle pinned).owner = a := fun ho => hown ho.symm
    obtain ⟨htal, h2⟩ := h a ha hx st' hst'
    rw [if_neg hown, if_neg hown]
    exact ⟨htal, h2⟩

theorem countsTrueBut_vacate (t : Tables) (i : Nat) (l : Lease) (hl : t.lease? i = some l) (h : t.countsTrueBut x) :
    (t.vacate i l).countsTrueBut x := by
  intro a ha hx st' hst'
  have hn := nth?_of_lease? t i l hl
  have hs := sum_map_setNth (LeaseEntry.slotsOf a) t.leases i ⟨(t.entry i).epoch + 1, none⟩ _ hn
  have hc := sum_map_setNth (LeaseEntry.leasesOf a) t.leases i ⟨(t.entry i).epoch + 1, none⟩ _ hn
  simp only [slotsOf_some, leasesOf_some, slotsOf_none, leasesOf_none, Nat.add_zero] at hs hc
  rw [vacate_station?] at hst'
  simp only [Station.tally, Tables.tally, vacate_leases, vacate_queue, Tables.freeEntry]
  split at hst'
  · next hown =>
    obtain ⟨st, hst, rfl⟩ := Option.map_eq_some_iff.mp hst'
    obtain ⟨htal, h2⟩ := h a ha hx st (by rw [hown]; exact hst)
    simp only [Station.tally, Tables.tally, Prod.mk.injEq] at htal
    obtain ⟨h1, h3, h4⟩ := htal
    rw [if_pos hown.symm] at hs hc
    refine ⟨?_, h2⟩
    simp only [Station.dropLease, Prod.mk.injEq]
    exact ⟨by omega, by omega, h4⟩
  · next hown =>
    obtain ⟨htal, h2⟩ := h a ha hx st' hst'
    rw [if_neg (Ne.symm hown), Nat.add_zero] at hs hc
    rw [hs, hc]
    exact ⟨htal, h2⟩

theorem countsTrueBut_unqueue (t : Tables) (e : PendingEntry) (q : List PendingEntry) (hp : t.queue.Perm (e :: q))
    (h : t.countsTrueBut x) : ({ t with queue := q }.modifyStation e.station .dropQueued).countsTrueBut x := by
  intro a ha hx st' hst'
  have hcount := hp.countP_eq fun e => e.station == a
  rw [List.countP_cons] at hcount
  rw [modifyStation_station?] at hst'
  simp only [Tables.tally, modifyStation_leases, modifyStation_queue]
  split at hst'
  · next hown =>
    obtain ⟨st, hst, rfl⟩ := Option.map_eq_some_iff.mp hst'
    obtain ⟨htal, h2⟩ := h a ha hx st (by rw [hown]; exact hst)
    simp only [Station.tally, Tables.tally, Prod.mk.injEq] at htal
    obtain ⟨h1, h3, h4⟩ := htal
    rw [if_pos (by simp [hown])] at hcount
    simp only [Station.tally, Station.dropQueued, Prod.mk.injEq]
    exact ⟨⟨h1, h3, by omega⟩, by omega⟩
  · next hown =>
    obtain ⟨htal, h2⟩ := h a ha hx st' hst'
    rw [if_neg (by simpa using Ne.symm hown), Nat.add_zero] at hcount
    rw [← hcount]
    exact ⟨htal, h2⟩

theorem countsTrueBut_dropEntries (t : Tables) (b : Nat) (h : t.countsTrueBut x) : (t.dropEntriesOf b).countsTrueBut x := by
  intro a ha hx st' hst'
  unfold Tables.dropEntriesOf at hst' ⊢
  rw [modifyStation_station?] at hst'
  simp only [Tables.tally, modifyStation_leases, modifyStation_queue, List.countP_filter]
  split at hst'
  · next hown =>
    obtain ⟨st, hst, rfl⟩ := Option.map_eq_some_iff.mp hst'
    obtain ⟨htal, h2⟩ := h a ha hx st (by rw [hown]; exact hst)
    simp only [Station.tally, Tables.tally, Prod.mk.injEq] at htal
    obtain ⟨h1, h3, -⟩ := htal
    have h0 : t.queue.countP (fun e => e.station == a && e.station != b) = 0 := by
      rw [List.countP_eq_zero]
      intro e _
      simp [hown]
    simp only [Station.tally, Prod.mk.injEq, h0]
    exact ⟨⟨h1, h3, trivial⟩, Nat.zero_le _⟩
  · next hown =>
    obtain ⟨htal, h2⟩ := h a ha hx st' hst'
    have heq : (fun e : PendingEntry => e.station == a && e.station != b) = fun e => e.station == a := by
      funext e
      by_cases he : e.station = a <;> simp [he, hown]
    rw [heq]
    exact ⟨htal, h2⟩

theorem countsTrueBut_enqueue (t : Tables) (b : Nat) (g : GrantAsk) (st0 : Station) (hst0 : t.station? b = some st0)
    (hr : t.queueRoom st0 = true) (h : t.countsTrueBut x) : (t.enqueue b g).1.countsTrueBut x := by
  intro a ha hx st' hst'
  rw [enqueue_eq] at hst' ⊢
  have hcount := (insertByPriority_perm (t.newEntry b g) t.queue).countP_eq fun e => e.station == a
  rw [List.countP_cons] at hcount
  rw [modifyStation_station?] at hst'
  simp only [Tables.tally, modifyStation_leases, modifyStation_queue]
  split at hst'
  · next hown =>
    obtain ⟨st, hst, rfl⟩ := Option.map_eq_some_iff.mp hst'
    replace hst : t.station? b = some st := hst
    rw [hst0] at hst
    cases hst
    obtain ⟨htal, -⟩ := h a ha hx st0 (by rw [hown]; exact hst0)
    simp only [Station.tally, Tables.tally, Prod.mk.injEq] at htal
    obtain ⟨h1, h3, h4⟩ := htal
    rw [if_pos (by simp [Tables.newEntry, hown])] at hcount
    have := ((queueRoom_iff t st0).mp hr).2
    simp only [Station.tally, Prod.mk.injEq]
    exact ⟨⟨h1, h3, by omega⟩, by omega⟩
  · next hown =>
    obtain ⟨htal, h2⟩ := h a ha hx st' hst'
    rw [if_neg (by simpa [Tables.newEntry] using Ne.symm hown), Nat.add_zero] at hcount
    rw [hcount]
    exact ⟨htal, h2⟩

/-- Nothing is counted at an address that no lease and no entry names. -/
theorem tally_absent (t : Tables) (a : Nat) (hl : ∀ i l, t.lease? i = some l → l.owner ≠ a)
    (hq : ∀ e ∈ t.queue, e.station ≠ a) : t.tally a = (0, 0, 0) := by
  have he : ∀ e ∈ t.leases, LeaseEntry.slotsOf a e = 0 ∧ LeaseEntry.leasesOf a e = 0 := by
    rintro ⟨epoch, lease⟩ hm
    cases lease with
    | none => exact ⟨rfl, rfl⟩
    | some l =>
      obtain ⟨k, hk, hget⟩ := List.mem_iff_getElem.mp hm
      have : t.lease? (k + 1) = some l := by simp [Tables.lease?, Tables.entry, nth?_succ, hk, hget]
      simp [slotsOf_some, leasesOf_some, hl (k + 1) l this]
  have hz : ∀ w : LeaseEntry → Nat, (∀ e ∈ t.leases, w e = 0) → (t.leases.map w).sum = 0 := fun w hw => by
    rw [List.sum_eq_zero_iff]
    simpa using hw
  rw [Tables.tally, hz _ fun e hm => (he e hm).1, hz _ fun e hm => (he e hm).2,
    List.countP_eq_zero.mpr fun e hm => by simpa using hq e hm]

theorem countsTrueBut_join (t : Tables) (b : Nat) (tag : BitVec 32) (seq : BitVec 4) (hb : t.station? b = none)
    (hnames : t.namesPresent) (h : t.countsTrueBut x) : (t.firstJoin b tag seq).countsTrueBut x := by
  intro a ha hx st' hst'
  have htally : (t.firstJoin b tag seq).tally a = t.tally a := rfl
  rw [htally]
  rcases setStation_station?_cases t b a (some (.first t.policy.defaultQuota tag seq)) with he | ⟨hab, he⟩
  · rw [Tables.firstJoin, he] at hst'
    exact h a ha hx st' hst'
  · rw [Tables.firstJoin, he] at hst'
    cases hst'
    subst hab
    rw [mem_addresses] at ha
    rw [tally_absent t a (fun i l hl ho => ?_) fun e hm ho => ?_]
    · exact ⟨rfl, Nat.zero_le _⟩
    · rcases (hnames.1 i l hl).1 with hh | hp
      · rw [ho] at hh; simp only [Config.house] at hh; omega
      · simp [ho, hb] at hp
    · simpa [ho, hb] using hnames.2 e hm

theorem move_countsTrueBut {t u : Tables} (hm : Tables.Move N x t u) (hN : N) (h48 : t.leases.length = 48)
    (hnames : t.namesPresent) (h : t.countsTrueBut x) : u.countsTrueBut x := by
  cases hm with
  | create i owner slots term idle pinned hg => exact countsTrueBut_create t i owner slots term idle pinned hg h48 h
  | vacate i l hl => exact countsTrueBut_vacate t i l hl h
  | relet i l l' hl hc =>
    exact countsTrueBut_of (t := t) (fun a ha hx => relet_tally t i a l l' hl hc ha hx)
      (fun a st' h' => ⟨st', h', rfl⟩) h
  | mapLeases f hslots howner _ _ =>
    exact countsTrueBut_of (t := t) (fun a _ _ => mapLeases_tally t f hslots howner a) (fun a st' h' => ⟨st', h', rfl⟩) h
  | station a st0 st1 h0 hk =>
    refine countsTrueBut_of (t := t) (fun _ _ _ => rfl) (fun b st' h' => ?_) h
    rw [setStation_station? t a b st0 _ h0] at h'
    split at h'
    · next hb => cases h'; exact ⟨st0, hb ▸ h0, keeps_tally hk⟩
    · exact ⟨st', h', rfl⟩
  | tick =>
    refine countsTrueBut_of (t := t) (fun _ _ _ => rfl) (fun b st' h' => ?_) h
    rw [tick_station?] at h'
    obtain ⟨st, hst, rfl⟩ := Option.map_eq_some_iff.mp h'
    exact ⟨st, hst, keeps_tally (tickMs_keeps st)⟩
  | join a tag seq ha => exact countsTrueBut_join t a tag seq ha hnames h
  | unqueue e q _ hp => exact countsTrueBut_unqueue t e q (hp hN) h
  | dropEntries a => exact countsTrueBut_dropEntries t a h
  | requeue q hq =>
    refine countsTrueBut_of (t := t) (fun a _ _ => ?_) (fun a st' h' => ⟨st', h', rfl⟩) h
    have hmap := sameRequest_map (fun e => e.station == a) (fun _ _ h => by rw [h.2.1]) hq
    have hc := congrArg (List.countP id) hmap
    rw [List.countP_map, List.countP_map] at hc
    exact congrArg (fun n => ((t.leases.map _).sum, (t.leases.map _).sum, n)) hc
  | enqueue a g st hst hr _ => exact countsTrueBut_enqueue t a g st hst hr h
  | policy id v hid _ =>
    rw [setPolicy_tables t id v (by omega)]
    split
    · exact countsTrueBut_of_eq (t := t) (by simp) (by simp) (by simp) h
    · exact h
  | raise | slotState | activity | shrink | grow | settle =>
    exact countsTrueBut_of_eq (t := t) (by simp [Tables.setArea]) (by simp [Tables.setArea]) (by simp [Tables.setArea]) h

end Sys2Proof.Machine
end

section
/-! SUPPORT. The invariants of every step (O54 to O60): each is kept by every move of the part. -/

namespace Sys2Proof.Machine

set_option Elab.async false

variable {N C : Prop} {x : Nat}

/-! ### Removals -/

theorem setStation_none_station? (t : Tables) (a b : Nat) (st : Station) (h : (t.setStation a none).station? b = some st) :
    t.station? b = some st := by
  rcases setStation_station?_cases t a b none with he | ⟨-, he⟩ <;> rw [he] at h
  · exact h
  · cases h

/-- What every move and every freed place of a station keeps, an operation keeps. -/
theorem reach_keeps {P : Tables → Prop} (hmove : ∀ x t u, Tables.Move N x t u → P t → P u)
    (hfree : ∀ t a, P t → P (t.setStation a none)) {t u : Tables} (h : Tables.Reach N t u) : P t → P u := by
  have hchain : ∀ {x t u}, Tables.Chain N x t u → P t → P u := fun hc ht => by
    induction hc with
    | refl => exact ht
    | tail _ hm ih => exact hmove _ _ _ hm ih
  induction h with
  | chain hc => exact hchain hc
  | removal a hc _ _ ih => exact fun ht => ih (hfree _ a (hchain hc ht))
  | trans _ _ ih1 ih2 => exact fun ht => ih2 (ih1 ht)

theorem reach_queueOrdered {t u : Tables} (h : Tables.Reach N t u) : t.queueOrdered → u.queueOrdered :=
  reach_keeps (fun _ _ _ => move_queueOrdered) (fun _ _ h => h) h

theorem shaped_freed (t : Tables) (a : Nat) (h : t.shaped) : (t.setStation a none).shaped :=
  shaped_of_eq (t := t) rfl rfl (by simp) rfl (fun _ => Iff.rfl) h

theorem reach_shaped {t u : Tables} (h : Tables.Reach N t u) : t.shaped → u.shaped :=
  reach_keeps (fun _ _ _ => move_shaped) shaped_freed h

theorem reach_coolingBounded {t u : Tables} (h : Tables.Reach N t u) :
    t.shaped ∧ t.coolingBounded → u.shaped ∧ u.coolingBounded :=
  reach_keeps (P := fun t => t.shaped ∧ t.coolingBounded) (fun _ _ _ hm ht => ⟨move_shaped hm ht.1, move_coolingBounded hm ht.1 ht.2⟩)
    (fun t a ht => ⟨shaped_freed t a ht.1, ht.2⟩) h

theorem reach_leasesSound {t u : Tables} (h : Tables.Reach N t u) :
    t.shaped ∧ t.leasesSound → u.shaped ∧ u.leasesSound :=
  reach_keeps (P := fun t => t.shaped ∧ t.leasesSound) (fun _ _ _ hm ht => ⟨move_shaped hm ht.1, move_leasesSound hm ht.1.2.1 ht.2⟩)
    (fun t a ht => ⟨shaped_freed t a ht.1, ht.2⟩) h

theorem reach_noticesNumbered {t u : Tables} (h : Tables.Reach N t u) : t.noticesNumbered → u.noticesNumbered :=
  reach_keeps (fun _ _ _ => move_noticesNumbered)
    (fun t a ht b hb st hst => ht b hb st (setStation_none_station? t a b st hst)) h

theorem reach_mapMatches {t u : Tables} (h : Tables.Reach N t u) :
    t.shaped ∧ t.queueOrdered ∧ t.mapMatchesLeases → u.shaped ∧ u.queueOrdered ∧ u.mapMatchesLeases :=
  reach_keeps (P := fun t => t.shaped ∧ t.queueOrdered ∧ t.mapMatchesLeases)
    (fun _ _ _ hm ht => ⟨move_shaped hm ht.1, move_queueOrdered hm ht.2.1, move_mapMatches hm ht.1 ht.2.1 ht.2.2⟩)
    (fun t a ht => ⟨shaped_freed t a ht.1, ht.2⟩) h

/-! ### Counts and names -/

/-- The shape, the names and the counts while station `x` is being removed. -/
def Tables.accounted (t : Tables) (x : Nat) : Prop := t.shaped ∧ t.namesPresent ∧ t.countsTrueBut x

theorem move_accounted {t u : Tables} (hN : N) (hm : Tables.Move N x t u) (h : t.accounted x) : u.accounted x :=
  ⟨move_shaped hm h.1, move_namesPresent hm h.1.1.2.2 h.2.1, move_countsTrueBut hm hN h.1.1.2.1 h.2.1 h.2.2⟩

theorem chain_accounted {t u : Tables} (hN : N) (hc : Tables.Chain N x t u) (h : t.accounted x) : u.accounted x := by
  induction hc with
  | refl => exact h
  | tail _ hm ih => exact move_accounted hN hm ih

/-- The place of a station that nothing names is freed. -/
theorem accounted_freed (t : Tables) (a : Nat) (hn : t.namesNowhere a) (h : t.accounted a) :
    (t.setStation a none).accounted 0 := by
  obtain ⟨hs, ⟨hleases, hqueue⟩, hcounts⟩ := h
  obtain ⟨hln, hqn⟩ := hn
  have hother : ∀ b, b ≠ a → (t.setStation a none).station? b = t.station? b := fun b hb =>
    setStation_station?_ne t a b none hb
  refine ⟨shaped_freed t a hs, ⟨fun i l hl => ?_,
    fun e he => ?_⟩, fun b hb _ st hst => ?_⟩
  · obtain ⟨ho, h4, hnd, hown, hp⟩ := hleases i l hl
    obtain ⟨hna, hla⟩ := hln i l hl
    refine ⟨by rwa [hother _ hna], h4, hnd, hown, fun b hb => ?_⟩
    rw [hother b fun hba => hla (hba ▸ hb)]
    exact hp b hb
  · rw [hother _ (hqn e he)]; exact hqueue e he
  · have hba : b ≠ a := by
      rintro rfl
      rw [mem_addresses] at hb
      have h30 := hs.1.2.2
      rw [setStation_station?_self t b none hb.1 (by omega)] at hst
      cases hst
    exact hcounts b hb hba st (by rwa [hother b hba] at hst)

theorem reach_accounted {t u : Tables} (hN : N) (h : Tables.Reach N t u) : t.accounted 0 → u.accounted 0 := by
  induction h with
  | chain hc => exact chain_accounted hN hc
  | removal a hc hn _ ih =>
    intro ht
    have hbut : Tables.accounted _ a := ⟨ht.1, ht.2.1, fun b hb _ => ht.2.2 b hb (by rw [mem_addresses] at hb; omega)⟩
    exact ih (accounted_freed _ a (hn ht.1.1) (chain_accounted hN hc hbut))
  | trans _ _ ih1 ih2 => exact fun ht => ih2 (ih1 ht)

/-! ### Emptied tables -/

/-- The tables as a reset leaves them: a fresh map, no lease, no station, no pending entry. -/
structure Tables.emptied (t : Tables) : Prop where
  slots : t.slots = freshSlots t.policy.streamArea
  leases : ∀ i, t.lease? i = none
  stations : ∀ a, t.station? a = none
  queue : t.queue = []

theorem freshSlots_slot (t : Tables) (area n : Nat) (h : t.slots = freshSlots area) :
    t.slot n = if 1 ≤ n ∧ n ≤ 63 ∧ n ≤ area then .inArea (.free false) .quiet else .outside := by
  by_cases h0 : n = 0
  · simp [Tables.slot, nth?, h0]
  · by_cases h63 : n ≤ 63
    · have hlt : n - 1 < Config.slotCount := by simp only [Config.slotCount]; omega
      by_cases ha : n ≤ area
      · simp [Tables.slot, nth?, h0, h, freshSlots, hlt, show 1 ≤ n by omega, h63, ha, show n - 1 < area by omega]
      · simp [Tables.slot, nth?, h0, h, freshSlots, hlt, ha, show ¬ n - 1 < area by omega]
    · have hge : ¬ n - 1 < Config.slotCount := by simp only [Config.slotCount]; omega
      simp [Tables.slot, nth?, h0, h, freshSlots, hge, h63]

theorem emptied_slotState? {t : Tables} (h : t.emptied) (n : Nat) (st : SlotState) (hst : t.slotState? n = some st) :
    st = .free false := by
  rw [slotState?_eq, freshSlots_slot t _ n h.slots] at hst
  split at hst
  · exact (Option.some.inj hst).symm
  · cases hst

theorem emptied_areaSplit {t : Tables} (h : t.emptied) : t.areaSplit := by
  intro n hn
  rw [mem_slotNumbers] at hn
  rw [freshSlots_slot t _ n h.slots]
  split
  · next hin => simpa using hin.2.2
  · next hout => simp only [true_iff]; omega

theorem emptied_coolingBounded {t : Tables} (h : t.emptied) : t.coolingBounded := fun n _ cool linger hst => by
  cases emptied_slotState? h n _ hst

theorem emptied_leasesSound {t : Tables} (h : t.emptied) : t.leasesSound := fun i l hl => by
  rw [h.leases] at hl; cases hl

theorem emptied_noticesNumbered {t : Tables} (h : t.emptied) : t.noticesNumbered := fun a _ st hst => by
  rw [h.stations] at hst; cases hst

theorem emptied_queueOrdered {t : Tables} (h : t.emptied) (ht : 1 ≤ t.ticket ∧ t.ticket ≤ 255) : t.queueOrdered := by
  simp [Tables.queueOrdered, h.queue, ht]

theorem emptied_mapMatches {t : Tables} (h : t.emptied) : t.mapMatchesLeases := by
  refine ⟨fun n _ i => ⟨fun hst => ?_, ?_⟩, fun i l hl => ?_⟩
  · cases emptied_slotState? h n _ hst
  · rintro ⟨l, hl, -⟩; rw [h.leases] at hl; cases hl
  · rw [h.leases] at hl; cases hl

theorem emptied_countsTrueBut {t : Tables} (h : t.emptied) : t.countsTrueBut x := fun a _ _ st hst => by
  rw [h.stations] at hst; cases hst

theorem emptied_namesPresent {t : Tables} (h : t.emptied) : t.namesPresent := by
  refine ⟨fun i l hl => ?_, fun e he => ?_⟩
  · rw [h.leases] at hl; cases hl
  · rw [h.queue] at he; cases he

/-- The entry of an address in a table of places that are all free. -/
theorem station?_replicate (t : Tables) (k a : Nat) (h : t.stations = List.replicate k none) : t.station? a = none := by
  unfold Tables.station? nth?
  rw [h]
  split
  · rfl
  · rw [List.getElem?_replicate]
    split <;> rfl

theorem softReset_emptied (t : Tables) : t.softReset.emptied where
  slots := rfl
  leases i := by
    by_cases h0 : i = 0
    · simp [Tables.lease?, Tables.entry, nth?, h0]
    · cases h : t.leases[i - 1]? with
      | none => simp [Tables.lease?, Tables.entry, nth?, h0, Tables.softReset, h]
      | some e => cases hl : e.lease <;> simp [Tables.lease?, Tables.entry, nth?, h0, Tables.softReset, h, LeaseEntry.freed, hl]
  stations a := station?_replicate _ Config.stationCount a rfl
  queue := rfl

theorem softReset_shaped (t : Tables) (h : t.shaped) : t.softReset.shaped := by
  obtain ⟨⟨-, h48, -⟩, hr, -⟩ := h
  exact ⟨⟨by simp [Tables.softReset, freshSlots, Config.slotCount], by simpa [Tables.softReset] using h48,
    by simp [Tables.softReset, Config.stationCount]⟩, hr, emptied_areaSplit (softReset_emptied t)⟩

theorem powerOn_emptied : Tables.powerOn.emptied where
  slots := rfl
  leases i := by
    by_cases h0 : i = 0
    · simp [Tables.lease?, Tables.entry, nth?, h0]
    · by_cases hi : i - 1 < Config.leaseCount <;>
        simp [Tables.lease?, Tables.entry, nth?, h0, Tables.powerOn, hi]
  stations a := station?_replicate _ Config.stationCount a rfl
  queue := rfl

theorem powerOn_inRange : Policy.powerOn.inRange := by
  intro id hid
  rw [List.mem_range'_1] at hid
  obtain ⟨h1, h16⟩ := hid
  interval_cases id <;> decide

theorem powerOn_shaped : Tables.powerOn.shaped :=
  ⟨⟨by simp [Tables.powerOn, freshSlots, Config.slotCount], by simp [Tables.powerOn, Config.leaseCount],
    by simp [Tables.powerOn, Config.stationCount]⟩, powerOn_inRange, emptied_areaSplit powerOn_emptied⟩

/-! ### What a move of the part makes of the tables -/

theorem stateMove_te {s u : State} (h : State.Move N C s u) : Tables.Reach N s.te u.te ∨
    C ∧ ((∃ mask, u.te = s.te.clearAlarms mask) ∨ u.te = s.te.softReset ∨ u.te = Tables.powerOn) := by
  have hsame : u.te = s.te → Tables.Reach N s.te u.te := fun he => he ▸ .chain .refl
  cases h with
  | beside hte _ _ _ _ => exact .inl (hsame hte)
  | tables te hr => exact .inl hr
  | clear mask hC => exact .inr ⟨hC, .inl ⟨mask, rfl⟩⟩
  | soften hC => exact .inr ⟨hC, .inr (.inl rfl)⟩
  | reset hC => exact .inr ⟨hC, .inr (.inr rfl)⟩
  | raiseExpiry a => exact .inl (.chain (modifyStation_chain _ a _ fun st => ⟨rfl, rfl, rfl, id⟩))
  | millisecond => exact .inl (.chain (.single (.tick _)))
  | lose => exact .inl (.chain (.single (.raise _ _)))
  | snapshot image _ =>
    refine .inl (hsame ?_)
    unfold State.takeSnapshot
    split <;> rfl
  | takeExpiry | dropNext | swap | watch | sync | lock => exact .inl (hsame rfl)

/-- What every operation, CLEAR ALARMS and the two resets keep of the tables, every step keeps. -/
theorem step_keeps_te {P : Tables → Prop} (hreach : ∀ t u, Tables.Reach N t u → P t → P u)
    (hclear : ∀ t mask, P t → P (t.clearAlarms mask)) (hsoft : ∀ t, P t → P t.softReset) (hpower : P Tables.powerOn)
    {s u : State} (hN : N → s.te.queueOrdered) (h : step s = .next u) (hs : P s.te) : P u.te := by
  refine runs_keeps (P := fun s => P s.te) (fun s u hm hP => ?_) (step_runs s u hN h) hs
  rcases stateMove_te hm with hr | ⟨-, ⟨mask, he⟩ | he | he⟩
  · exact hreach _ _ hr hP
  · rw [he]; exact hclear _ mask hP
  · rw [he]; exact hsoft _ hP
  · rw [he]; exact hpower

/-! ### The statements -/

theorem step_keeps_shaped {s u : State} (h : step s = .next u) (hs : s.te.shaped) : u.te.shaped :=
  step_keeps_te (N := False) (fun _ _ => reach_shaped) (fun _ _ h => h) softReset_shaped powerOn_shaped nofun h hs

/-- Settles O54: the shape, and with it the cooling counts and the lease fields, are kept by every move of the tables. -/
theorem stepKeepsShape : Obligations.StepKeepsShape := by
  intro s u hs h
  refine ⟨step_keeps_shaped h hs, fun hc => ?_, fun hl => ?_⟩
  · exact (step_keeps_te (N := False) (P := fun t => t.shaped ∧ t.coolingBounded) (fun _ _ => reach_coolingBounded)
      (fun _ _ h => h) (fun t ht => ⟨softReset_shaped t ht.1, emptied_coolingBounded (softReset_emptied t)⟩)
      ⟨powerOn_shaped, emptied_coolingBounded powerOn_emptied⟩ nofun h ⟨hs, hc⟩).2
  · exact (step_keeps_te (N := False) (P := fun t => t.shaped ∧ t.leasesSound) (fun _ _ => reach_leasesSound)
      (fun _ _ h => h) (fun t ht => ⟨softReset_shaped t ht.1, emptied_leasesSound (softReset_emptied t)⟩)
      ⟨powerOn_shaped, emptied_leasesSound powerOn_emptied⟩ nofun h ⟨hs, hl⟩).2

/-- Settles O55: a notice is added with the next number while there is room, and removed from the front. -/
theorem stepKeepsNoticesNumbered : Obligations.StepKeepsNoticesNumbered := by
  intro s u _ hn h
  exact step_keeps_te (N := False) (fun _ _ => reach_noticesNumbered) (fun _ _ h => h)
    (fun t _ => emptied_noticesNumbered (softReset_emptied t)) (emptied_noticesNumbered powerOn_emptied) nofun h hn

theorem step_keeps_queueOrdered {s u : State} (h : step s = .next u) (hs : s.te.queueOrdered) : u.te.queueOrdered :=
  step_keeps_te (N := False) (fun _ _ => reach_queueOrdered) (fun _ _ h => h)
    (fun t ht => emptied_queueOrdered (softReset_emptied t) ht.2.2.2.2)
    (emptied_queueOrdered powerOn_emptied (by decide)) nofun h hs

theorem foldl_insertAddress_pairwise (as es : List Nat) (h : es.Pairwise (· < ·)) :
    (as.foldl (fun es a => insertAddress a es) es).Pairwise (· < ·) := by
  induction as generalizing es with
  | nil => exact h
  | cons a as ih => exact ih _ (insertAddress_pairwise a es h)

theorem stateMove_expiries {s u : State} (hm : State.Move N C s u) (h : s.arbiter.expiries.Pairwise (· < ·)) :
    u.arbiter.expiries.Pairwise (· < ·) := by
  cases hm with
  | beside _ he _ _ _ => exact he ▸ h
  | reset => exact List.Pairwise.nil
  | raiseExpiry a => exact insertAddress_pairwise a _ h
  | takeExpiry a => exact h.sublist List.erase_sublist
  | millisecond => exact foldl_insertAddress_pairwise _ _ h
  | snapshot image _ =>
    unfold State.takeSnapshot
    split <;> exact h
  | tables | clear | soften | dropNext | swap | watch | sync | lock | lose => exact h

/-- Settles O56: entries leave the queue or take their place by priority under a free ticket; an expiry takes its place in
ascending order. -/
theorem stepKeepsQueueOrdered : Obligations.StepKeepsQueueOrdered :=
  ⟨fun _ _ hs h => step_keeps_queueOrdered h hs,
    fun s u hs h => runs_keeps (fun _ _ => stateMove_expiries) (step_runs (N := False) s u nofun h) hs⟩

/-- Settles O57: a grant leases free slots, a retirement cools all slots of its lease, and no other move touches a slot that
is in a lease. -/
theorem stepKeepsMapMatchingLeases : Obligations.StepKeepsMapMatchingLeases := by
  intro s u hs hq hm h
  exact (step_keeps_te (N := False) (P := fun t => t.shaped ∧ t.queueOrdered ∧ t.mapMatchesLeases)
    (fun _ _ => reach_mapMatches) (fun _ _ h => h)
    (fun t ht => ⟨softReset_shaped t ht.1, emptied_queueOrdered (softReset_emptied t) ht.2.1.2.2.2.2,
      emptied_mapMatches (softReset_emptied t)⟩)
    ⟨powerOn_shaped, emptied_queueOrdered powerOn_emptied (by decide), emptied_mapMatches powerOn_emptied⟩ nofun h
    ⟨hs, hq, hm⟩).2.2

/-- Settles O58: every move counts what it adds and takes away; a removal leaves nothing that names its station. -/
theorem stepKeepsCountsTrue : Obligations.StepKeepsCountsTrue := by
  intro s u hs hq hc hn h
  have hacc : u.te.accounted 0 := step_keeps_te (N := s.te.queueOrdered) (P := fun t => t.accounted 0)
    (fun _ _ => reach_accounted hq) (fun _ _ h => h)
    (fun t ht => ⟨softReset_shaped t ht.1, emptied_namesPresent (softReset_emptied t),
      emptied_countsTrueBut (softReset_emptied t)⟩)
    ⟨powerOn_shaped, emptied_namesPresent powerOn_emptied, emptied_countsTrueBut powerOn_emptied⟩ id h
    ⟨hs, hn, (countsTrue_iff s.te).mp hc⟩
  exact ⟨(countsTrue_iff u.te).mpr hacc.2.2, hacc.2.1⟩

theorem stateMove_trunk {s u : State} (hm : State.Move N C s u) (h : s.trunk.ranged) : u.trunk.ranged := by
  cases hm with
  | beside _ _ ht _ _ => exact ht ▸ h
  | reset => exact ⟨trivial, Nat.zero_le _⟩
  | snapshot image _ =>
    unfold State.takeSnapshot
    split <;> exact h
  | watch low w hw => exact ⟨h.1, hw⟩
  | sync y hr _ => exact ⟨hr h.1, h.2⟩
  | lock => exact ⟨⟨Nat.zero_le _, fresh_ranged _⟩, h.2⟩
  | lose => exact ⟨trivial, h.2⟩
  | tables | clear | soften | raiseExpiry | takeExpiry | millisecond | dropNext | swap => exact h

theorem stateMove_images {s u : State} (hm : State.Move N C s u) (h : s.imagesWhole) : u.imagesWhole := by
  obtain ⟨hcur, hnext, hstop⟩ := h
  cases hm with
  | beside _ _ ht hb _ =>
    refine ⟨hb ▸ hcur, hb ▸ hnext, fun hu => hb ▸ hstop ?_⟩
    rwa [State.trunkHeld, ht] at hu
  | reset => exact ⟨nofun, nofun, fun _ => rfl⟩
  | snapshot image hi =>
    unfold State.takeSnapshot
    split
    · next hheld =>
      refine ⟨hcur, fun b hb => ?_, fun hu => ?_⟩
      · cases hb; exact hi
      · exact absurd hheld (by simpa [State.trunkHeld] using hu)
    · exact ⟨hcur, hnext, hstop⟩
  | dropNext => exact ⟨hcur, nofun, fun hu => by rw [hstop hu]; rfl⟩
  | swap => exact ⟨hnext, nofun, fun hu => by rw [hstop hu]; rfl⟩
  | sync y _ hw =>
    refine ⟨hcur, hnext, fun hu => hstop ?_⟩
    rw [State.trunkHeld] at hu ⊢
    rw [← hw]; exact hu
  | lock => exact ⟨hnext, nofun, nofun⟩
  | lose => exact ⟨nofun, nofun, fun _ => rfl⟩
  | tables | clear | soften | raiseExpiry | takeExpiry | millisecond | watch => exact ⟨hcur, hnext, hstop⟩

/-- Settles O59: every event of the trunk keeps its fields in their ranges; an image is a whole snapshot or absent, and the
loss of the trunk stops both. -/
theorem stepKeepsTrunkAndBeacon : Obligations.StepKeepsTrunkAndBeacon :=
  ⟨fun s u hs h => runs_keeps (fun _ _ => stateMove_trunk) (step_runs (N := False) s u nofun h) hs,
    fun s u hs h => runs_keeps (fun _ _ => stateMove_images) (step_runs (N := False) s u nofun h) hs⟩

/-! ### Alarm flags (10.5) -/

theorem alarmSet_of_eq {t u : Tables} (h : u.alarms = t.alarms) (a : Alarm) : u.alarmSet a = t.alarmSet a := by
  rw [Tables.alarmSet, Tables.alarmSet, h]

/-- No move of the tables clears a flag. -/
theorem move_alarmSet {t u : Tables} (hm : Tables.Move N x t u) (a : Alarm) (h : t.alarmSet a = true) :
    u.alarmSet a = true := by
  cases hm with
  | raise b => rw [raise_alarmSet, h]; rfl
  | policy id v hid _ =>
    rw [setPolicy_tables t id v (by omega)]
    split
    · unfold Tables.applyLingerLimit
      dsimp only
      split
      · rw [raise_alarmSet, Bool.or_eq_true]; exact .inl h
      · exact h
    · exact h
  | dropEntries b => exact (alarmSet_of_eq (modifyStation_alarms _ _ _) a).trans h
  | unqueue e q _ _ => exact (alarmSet_of_eq (modifyStation_alarms _ _ _) a).trans h
  | enqueue b g _ _ _ _ => exact (alarmSet_of_eq (modifyStation_alarms _ _ _) a).trans h
  | create i _ _ _ _ _ _ => exact (alarmSet_of_eq (createLease_alarms _ _ _) a).trans h
  | vacate i l _ => exact (alarmSet_of_eq (vacate_alarms _ _ _) a).trans h
  | slotState n _ st' _ _ _ _ => exact (alarmSet_of_eq (setSlotState_alarms _ _ _) a).trans h
  | activity n f => exact (alarmSet_of_eq (setActivity_alarms _ _ _) a).trans h
  | shrink area _ _ _ => exact (alarmSet_of_eq (setSlots_alarms _ _ _) a).trans h
  | grow area _ _ => exact (alarmSet_of_eq (setSlots_alarms _ _ _) a).trans h
  | station | tick | join | relet | mapLeases | requeue | settle => exact h

/-- Settles O60: only CLEAR ALARMS and the resets, which the other commands do not stand for, clear a flag. -/
theorem alarmFlagsStaySet : Obligations.AlarmFlagsStaySet := by
  intro c a s u hclear hsoft hpower h hs
  have hC : clearsAlarms c → False := by
    cases c with
    | clearAlarms w => exact fun _ => hclear w rfl
    | softReset f => exact fun _ => hsoft f rfl
    | powerOnReset => exact fun _ => hpower rfl
    | _ => exact id
  refine runs_keeps (P := fun s => s.te.alarmSet a = true) (fun s u hm hP => ?_)
    (exec_runs (N := False) (C := False) c s u nofun hC h) hs
  rcases stateMove_te hm with hr | ⟨hf, -⟩
  · exact reach_keeps (fun _ _ _ hm => move_alarmSet hm a) (fun _ _ h => h) hr hP
  · exact hf.elim

/-! ### The state after a reset -/

/-- Settles O53: a reset leaves the tables emptied, no expiry waiting, the trunk unlocked and no image. -/
theorem resetMeetsInvariants : Obligations.ResetMeetsInvariants :=
  ⟨powerOn_shaped, emptied_coolingBounded powerOn_emptied, emptied_leasesSound powerOn_emptied,
    emptied_noticesNumbered powerOn_emptied, emptied_queueOrdered powerOn_emptied (by decide),
    emptied_mapMatches powerOn_emptied, (countsTrue_iff _).mpr (emptied_countsTrueBut powerOn_emptied),
    emptied_namesPresent powerOn_emptied, List.Pairwise.nil, ⟨trivial, Nat.zero_le _⟩, nofun, nofun, fun _ => rfl⟩

end Sys2Proof.Machine
end

section
/-! SUPPORT. The step, the arbiter and the handing over (2.1): which operation is next, how a row reaches its operation, and
what hands it over (O1 to O4). -/

namespace Sys2Proof.Machine

set_option Elab.async false

/-! ### Rows by what they stand for -/

theorem exec_commandRow (i : Instr) (c : List Byte) (s : State) (h : commandBytes i = some c) :
    exec i s = .next (s.manage c) := by
  cases i with
  | readSlot f | readLease f | readStation f | readQueue f | readCounts f | readPolicy f | setPolicy f | setQuota f
  | houseGrant f | bar f | unbar f | resize f | evict f | clearLeases f | softReset f =>
    cases h; rfl
  | pinOn f | pinOff f | revokeSoft f | revokeImmediate f =>
    simp only [commandBytes] at h
    split at h
    · cases h
    · next hs =>
      cases h
      exact congrArg _ (if_neg hs)
  | _ => cases h

theorem exec_replyRow (i : Instr) (f : ReplyFrame) (s : State) (h : replyFrame? i = some f) :
    exec i s = .next (s.replied f) := by
  cases i with
  | join hd b | leave hd b | grant hd b | renew hd b | release hd b | attach hd b | detach hd b | querySlot hd b
  | queryLease hd b | listMine hd b | cancel hd b =>
    cases h; rfl
  | idle hd => cases h; rfl
  | unknownKindRequest hd body =>
    simp only [replyFrame?] at h
    split at h
    · cases h
    · next hk =>
      cases h
      exact congrArg _ (if_neg hk)
  | _ => cases h

/-- A command always has its code. -/
theorem commandBytes_length (i : Instr) (c : List Byte) (h : commandBytes i = some c) : 1 ≤ c.length := by
  cases i with
  | pinOn f | pinOff f | revokeSoft f | revokeImmediate f =>
    simp only [commandBytes] at h
    split at h <;> cases h
    simp
  | readSlot f | readLease f | readStation f | readQueue f | readCounts f | readPolicy f | setPolicy f | setQuota f
  | houseGrant f | bar f | unbar f | resize f | evict f | clearLeases f | softReset f => cases h; simp
  | _ => cases h

/-- Every command answers a next state. -/
theorem exec_next (c : Instr) (s : State) : ∃ u, exec c s = .next u := by
  cases c with
  | writeAlarmEnable w => simp only [exec, execWriteAlarmEnable]; split <;> exact ⟨_, rfl⟩
  | clearAlarms w => simp only [exec, execClearAlarms]; split <;> exact ⟨_, rfl⟩
  | _ => exact ⟨_, rfl⟩

theorem stateMove_pending {N C : Prop} {s u : State} (hm : State.Move N C s u) : u.pending = s.pending := by
  cases hm with
  | beside _ _ _ _ hp => exact hp
  | snapshot image _ => unfold State.takeSnapshot; split <;> rfl
  | _ => rfl

/-- Settles O1. -/
theorem stepRunsFrontCommand : Obligations.StepRunsFrontCommand := fun c rest s h => by
  obtain ⟨_, rfl, hs⟩ := step_cons s c rest h
  exact hs

/-- Settles O2: every arm answers a next state, and no move of the part touches the queue of commands. -/
theorem everyCommandCompletes : Obligations.EveryCommandCompletes := by
  intro c s
  obtain ⟨u, hu⟩ := exec_next c s
  exact ⟨u, hu, runs_keeps (P := fun v => v.pending = s.pending) (fun _ _ hm => (stateMove_pending hm).trans)
    (exec_runs (N := False) (C := True) c s u nofun (fun _ => trivial) hu) rfl⟩

/-! ### The arbiter's order -/

theorem nextOperation?_close (s : State) (h : ∀ c, s.port.mailbox ≠ .busy c) (r : List Finding) (rest : List (List Finding))
    (hc : s.arbiter.closes = r :: rest) : s.nextOperation? = some (.close r) := by
  unfold State.nextOperation?
  split
  · exact absurd ‹_› (h _)
  · rw [hc]

theorem nextOperation?_expiry (s : State) (h : ∀ c, s.port.mailbox ≠ .busy c) (hc : s.arbiter.closes = []) (a : Nat)
    (rest : List Nat) (he : s.arbiter.expiries = a :: rest) : s.nextOperation? = some (.expiry a) := by
  unfold State.nextOperation?
  split
  · exact absurd ‹_› (h _)
  · rw [hc, he]

theorem nextOperation?_stationOp (s : State) (h : ∀ c, s.port.mailbox ≠ .busy c) (hc : s.arbiter.closes = [])
    (he : s.arbiter.expiries = []) : s.nextOperation? = s.arbiter.station.map .station := by
  unfold State.nextOperation?
  split
  · exact absurd ‹_› (h _)
  · rw [hc, he]

/-- The arbiter's next operation is one that waits. -/
theorem waits_of_next (s : State) (op : Operation) (h : s.nextOperation? = some op) : s.waits op = true := by
  unfold State.nextOperation? at h
  split at h
  · next c hm => cases h; simp [State.waits, hm]
  · split at h
    · next r _ hc => cases h; simp [State.waits, hc]
    · split at h
      · next a _ he => cases h; simp [State.waits, he]
      · obtain ⟨op', hs, rfl⟩ := Option.map_eq_some_iff.mp h
        simp [State.waits, hs]

theorem nextOperation?_command_iff (s : State) (c : List Byte) :
    s.nextOperation? = some (.command c) ↔ s.port.mailbox = .busy c :=
  ⟨fun h => by simpa [State.waits] using waits_of_next s _ h, nextOperation?_busy s c⟩

/-- The expiry that is next stands first of those waiting, and the list ascends. -/
theorem nextOperation?_lowest (s : State) (h : s.arbiter.expiries.Pairwise (· < ·)) (a : Nat)
    (hn : s.nextOperation? = some (.expiry a)) : ∀ b ∈ s.arbiter.expiries, a ≤ b := by
  unfold State.nextOperation? at hn
  split at hn
  · cases hn
  · split at hn
    · cases hn
    · split at hn
      · next a' rest he =>
        cases hn
        rw [he] at h ⊢
        intro b hb
        rcases List.mem_cons.mp hb with rfl | hb
        · exact le_rfl
        · exact ((List.pairwise_cons.mp h).1 b hb).le
      · obtain ⟨_, _, hop⟩ := Option.map_eq_some_iff.mp hn
        cases hop

/-- The row of an operation that waits takes it, when it is next, and changes nothing otherwise. -/
theorem exec_row_waiting (i : Instr) (op : Operation) (s : State) (hr : rowTakes i op = true) (hw : s.waits op = true) :
    exec i s = .next (s.take op) := by
  cases op with
  | command c =>
    have hm : s.port.mailbox = .busy c := by simpa [State.waits] using hw
    rw [exec_commandRow i c s (by simpa [rowTakes] using hr), State.manage, if_pos hm]
  | close r =>
    obtain rfl : i = .periodClose r := by simpa [rowTakes] using hr
    rfl
  | expiry a =>
    obtain rfl : i = .silenceExpiry a := by simpa [rowTakes] using hr
    have ha : a ∈ s.arbiter.expiries := by simpa [State.waits] using hw
    show Host.Outcome.next (s.expire a) = _
    rw [State.expire, if_pos ha]
  | station op =>
    have hs : s.arbiter.station = some op := by simpa [State.waits] using hw
    cases op with
    | miss a =>
      obtain rfl : i = .missReport a := by simpa [rowTakes] using hr
      show Host.Outcome.next (s.missReport a) = _
      simp [State.missReport, hs]
    | reply f o =>
      rw [exec_replyRow i f s (by simpa [rowTakes] using hr)]
      simp [State.replied, hs, State.takeHandedReply]

/-- Settles O3: the order is that of `nextOperation?`, and a row takes the operation that waits when it is next. -/
theorem arbiterTakesInOrder : Obligations.ArbiterTakesInOrder := by
  intro s
  refine ⟨nextOperation?_busy s, nextOperation?_close s, nextOperation?_expiry s, fun h hc he op hs => ?_,
    nextOperation?_lowest s, fun i op hr hw hn => ?_, fun i op hp hr hn => ?_⟩
  · rw [nextOperation?_stationOp s h hc he, hs]; rfl
  · rw [exec_row_waiting i op s hr hw, take_other s op hn]
  · rw [exec_row_waiting i op s hr (waits_of_next s op hn), take_next s op hn]
    simp [step, hp, State.ownStep, hn]

/-! ### Handing over -/

theorem writeCommand_free (s : State) (c : List Byte) (h : ∀ b, s.port.mailbox ≠ .busy b) (h1 : 1 ≤ c.length)
    (h24 : c.length ≤ 24) :
    s.writeCommand c = { s with port := { s.port with mailbox := .busy c, rejected := false } } := by
  unfold State.writeCommand
  split
  · exact absurd ‹_› (h _)
  · exact if_pos ⟨h1, h24⟩

theorem writeCommand_rejected (s : State) (c : List Byte)
    (h : (∃ b, s.port.mailbox = .busy b) ∨ ¬ (1 ≤ c.length ∧ c.length ≤ 24)) :
    s.writeCommand c = { s with port := { s.port with rejected := true } } := by
  unfold State.writeCommand
  split
  · rfl
  · next hm =>
    rcases h with ⟨b, hb⟩ | h
    · exact absurd hb (hm b)
    · exact if_neg h

/-- A row given before its command has been accepted is the WRITE COMMAND and then the row. -/
theorem manage_free (s : State) (c : List Byte) (h : s.port.mailbox ≠ .busy c) :
    s.manage c = (s.writeCommand c).take (.command c) := by
  rw [State.manage, if_neg h]

/-- A rejected write leaves no command of these bytes to take. -/
theorem manage_rejected (s : State) (c : List Byte) (h : (∃ b, s.port.mailbox = .busy b ∧ b ≠ c) ∨
    ((∀ b, s.port.mailbox ≠ .busy b) ∧ 24 < c.length)) : s.manage c = s.writeCommand c := by
  have hne : s.port.mailbox ≠ .busy c := by
    rcases h with ⟨b, hb, hbc⟩ | ⟨hb, -⟩
    · rw [hb]; simpa using hbc
    · exact hb c
  have hrej : (∃ b, s.port.mailbox = .busy b) ∨ ¬ (1 ≤ c.length ∧ c.length ≤ 24) :=
    h.imp (fun ⟨b, hb, _⟩ => ⟨b, hb⟩) fun ⟨_, h24⟩ => by omega
  rw [manage_free s c hne]
  refine take_other _ _ fun hn => hne ?_
  rw [nextOperation?_command_iff, writeCommand_rejected s c hrej] at hn
  exact hn

/-- The end of a clean frame in RECEIVING hands over the reply it brings. -/
theorem frameEnd_valid (s : State) (a : Nat) (chars : List RxChar) (f : ReplyFrame) (hx : s.line.exchange = .receiving a)
    (hv : validReply a chars = some f) :
    s.frameEnd chars = (s.setExchange (.waitEngine a)).setStationOp (some (.reply f (a == 0))) := by
  simp [State.frameEnd, hx, hv]

theorem frameEnd_invalid (s : State) (a : Nat) (chars : List RxChar) (hx : s.line.exchange = .receiving a)
    (hv : validReply a chars = none) : s.frameEnd chars = s.missed a := by
  simp [State.frameEnd, hx, hv]

theorem frameEnd_other (s : State) (chars : List RxChar) (hx : ∀ a, s.line.exchange ≠ .receiving a) :
    s.frameEnd chars = s := by
  unfold State.frameEnd
  split
  · exact absurd ‹_› (hx _)
  · rfl

/-- A miss is handed over after the poll of a station alone. -/
theorem missed_station (s : State) (a : Nat) : (s.missed a).arbiter.station =
    if a = 0 then s.arbiter.station else some (.miss a) := by
  unfold State.missed
  dsimp only
  split <;> rfl

theorem takeHandedReply_other (s : State) (f : ReplyFrame) (h : ∀ g o, s.arbiter.station ≠ some (.reply g o)) :
    s.takeHandedReply f = s := by
  unfold State.takeHandedReply
  split
  · exact absurd ‹_› (h _ _)
  · rfl

theorem replied_handed (s : State) (f : ReplyFrame) (op : StationOp) (h : s.arbiter.station = some op) :
    s.replied f = s.takeHandedReply f := by
  simp [State.replied, h]

theorem replied_free (s : State) (f : ReplyFrame) (h : s.arbiter.station = none) :
    s.replied f = (s.frameEnd (cleanChars f.bytes)).takeHandedReply f := by
  simp [State.replied, h]

/-- A reply row in RECEIVING is the end of its frame and then the row. -/
theorem replied_receiving (s : State) (f : ReplyFrame) (a : Nat) (hs : s.arbiter.station = none)
    (hx : s.line.exchange = .receiving a) (hv : validReply a (cleanChars f.bytes) = some f) :
    s.replied f = (s.frameEnd (cleanChars f.bytes)).replied f := by
  rw [replied_free s f hs, frameEnd_valid s a _ f hx hv, replied_handed _ f _ rfl]

theorem replied_refused (s : State) (f : ReplyFrame) (a : Nat) (hs : s.arbiter.station = none)
    (hx : s.line.exchange = .receiving a) (hv : validReply a (cleanChars f.bytes) = none) :
    s.replied f = s.frameEnd (cleanChars f.bytes) := by
  rw [replied_free s f hs, frameEnd_invalid s a _ hx hv]
  refine takeHandedReply_other _ f fun g o => ?_
  rw [missed_station, hs]
  split <;> simp

theorem replied_impossible (s : State) (f : ReplyFrame)
    (h : (s.arbiter.station = none ∧ ∀ a, s.line.exchange ≠ .receiving a) ∨
      ∃ op, s.arbiter.station = some op ∧ ∀ o, op ≠ .reply f o) : s.replied f = s := by
  rcases h with ⟨hs, hx⟩ | ⟨op, hs, hop⟩
  · rw [replied_free s f hs, frameEnd_other s _ hx]
    exact takeHandedReply_other s f (by simp [hs])
  · rw [replied_handed s f op hs]
    unfold State.takeHandedReply
    split
    · next g o hg =>
      rw [hs] at hg
      cases hg
      exact if_neg fun hgf : g = f => hop o (by rw [hgf])
    · rfl

theorem windowExpiry_awaiting (s : State) (a left : Nat) (hx : s.line.exchange = .awaitReply a left) :
    s.windowExpiry = s.missed a := by
  simp [State.windowExpiry, hx]

/-- A miss report in AWAIT_REPLY is the expiry of the window and then the row. -/
theorem missReport_awaiting (s : State) (a left : Nat) (ha : a ≠ 0) (hs : s.arbiter.station = none)
    (hx : s.line.exchange = .awaitReply a left) : s.missReport a = s.windowExpiry.missReport a := by
  have hst : s.windowExpiry.arbiter.station = some (.miss a) := by
    rw [windowExpiry_awaiting s a left hx, missed_station, if_neg ha]
  have h1 : s.missReport a = s.windowExpiry.take (.station (.miss a)) := by simp [State.missReport, hs, hx]
  have h2 : s.windowExpiry.missReport a = s.windowExpiry.take (.station (.miss a)) := by simp [State.missReport, hst]
  rw [h1, h2]

/-- A silence expiry before the timer has run out is the run-out and then the row. -/
theorem expire_unraised (s : State) (a : Nat) (ha : a ∉ s.arbiter.expiries) (hs : s.te.isSilent a = true) :
    s.expire a = (s.raiseExpiry a).expire a := by
  have hr : a ∈ (s.raiseExpiry a).arbiter.expiries := (mem_insertAddress a a _).mpr (.inl rfl)
  simp [State.expire, ha, hs, hr]

/-- Settles O4: each row is unfolded to what hands its operation over and the taking of it. -/
theorem rowsHandOverTheirOperation : Obligations.RowsHandOverTheirOperation := by
  refine ⟨fun i c s hc => ⟨fun hb h24 => ⟨s.writeCommand c, rfl, ?_, ?_⟩, fun h => ?_⟩, fun i f a s hf hs hx hv => ?_,
    fun i f a s hf hs hx hv => ?_, fun i f s hf h => ?_, fun a left s ha hs hx => ?_, fun a s ha hs => ?_,
    fun r s h => ?_⟩
  · rw [nextOperation?_command_iff, writeCommand_free s c hb (commandBytes_length i c hc) h24]
  · have hbusy : (s.writeCommand c).port.mailbox = .busy c := by
      rw [writeCommand_free s c hb (commandBytes_length i c hc) h24]
    rw [exec_commandRow i c s hc, exec_commandRow i c _ hc, manage_free s c (hb c), State.manage, if_pos hbusy]
  · rw [exec_commandRow i c s hc, manage_rejected s c h]; rfl
  · refine ⟨s.frameEnd (cleanChars f.bytes), rfl, ?_, ?_⟩
    · rw [frameEnd_valid s a _ f hx hv]; rfl
    · rw [exec_replyRow i f s hf, exec_replyRow i f _ hf, replied_receiving s f a hs hx hv]
  · rw [exec_replyRow i f s hf, replied_refused s f a hs hx hv]; rfl
  · rw [exec_replyRow i f s hf, replied_impossible s f h]
  · refine ⟨s.windowExpiry, rfl, ?_, congrArg Host.Outcome.next (missReport_awaiting s a left ha hs hx)⟩
    rw [windowExpiry_awaiting s a left hx, missed_station, if_neg ha]
  · exact congrArg Host.Outcome.next (expire_unraised s a ha hs)
  · refine congrArg _ (take_other s _ fun hn => h ?_)
    simpa [State.waits] using waits_of_next s _ hn

end Sys2Proof.Machine
end

section
/-! SUPPORT. The management commands by their rows (10.3): what a row answers from what its command does, the commands that
read, policy values, quotas, house grants, pins and revocations, RESIZE, malformed commands (O6, O10 to O15, O18, O21). -/

namespace Sys2Proof.Machine

set_option Elab.async false

/-! ### A command at its row -/

/-- A row whose command the port holds and whose bytes are good answers what the command does. -/
theorem exec_goodRow (i : Instr) (c : List Byte) (x : Command) (s : State) (o : CmdOutcome) (hi : commandBytes i = some c)
    (h : s.port.mailbox = .busy c) (hp : parseCommand s.te.policy.streamArea c = .good x) (hx : x ≠ .softReset)
    (ho : s.te.runCommand s.trunk.sync x = o) : exec i s = .next (s.responded o.tables (c.headD 0) o.result o.body) := by
  subst ho
  rw [exec_commandRow i c s hi, manage_good s c x h hp hx]

/-- Likewise for a command whose fields pass a range check. -/
theorem exec_rangedRow (i : Instr) (c : List Byte) (b : Bool) (x : Command) (s : State) (o : CmdOutcome)
    (hi : commandBytes i = some c) (h : s.port.mailbox = .busy c)
    (hp : parseCommand s.te.policy.streamArea c = .ranged b x) (hb : b = true) (hx : x ≠ .softReset)
    (ho : s.te.runCommand s.trunk.sync x = o) : exec i s = .next (s.responded o.tables (c.headD 0) o.result o.body) :=
  exec_goodRow i c x s o hi h (by rw [hp, hb, ranged_true]) hx ho

/-- A row whose command is refused at the first two steps of its checks. -/
theorem exec_badRow (i : Instr) (c : List Byte) (r : CmdResult) (s : State) (hi : commandBytes i = some c)
    (h : s.port.mailbox = .busy c) (hp : parseCommand s.te.policy.streamArea c = .bad r) :
    exec i s = .next (s.responded s.te (c.headD 0) r []) := by
  rw [exec_commandRow i c s hi, manage_bad s c r h hp]

theorem exec_outOfRangeRow (i : Instr) (c : List Byte) (b : Bool) (x : Command) (s : State) (hi : commandBytes i = some c)
    (h : s.port.mailbox = .busy c) (hp : parseCommand s.te.policy.streamArea c = .ranged b x) (hb : b = false) :
    exec i s = .next (s.responded s.te (c.headD 0) .badValue []) :=
  exec_badRow i c .badValue s hi h (by rw [hp, hb, ranged_false])

theorem isStation_eq_false (a : Nat) (h : a = 0 ∨ 30 < a) : isStation a = false := by
  rw [← Bool.not_eq_true, isStation_iff]; omega

theorem isIndex_eq_false (i : Nat) (h : i = 0 ∨ 48 < i) : isIndex i = false := by
  rw [← Bool.not_eq_true, isIndex_iff]; omega

theorem within_eq_false (low n high : Nat) (h : n < low ∨ high < n) : within low n high = false := by
  rw [← Bool.not_eq_true, within_iff]; omega

/-! ### The part after a power-on reset -/

/-- Settles O6: each record is read off the reset state; the slots by the fresh map. -/
theorem powerOnResetLeaves : Obligations.PowerOnResetLeaves := by
  refine ⟨fun _ => rfl, fun n hn => ?_, fun n hn => ?_, fun i hi => ?_, fun a _ => powerOn_emptied.stations a, rfl, rfl, rfl,
    rfl, rfl, ?_, rfl, rfl, rfl, rfl, rfl, rfl, rfl, rfl, rfl, rfl, rfl, rfl, rfl, rfl, rfl, rfl⟩
  · rw [List.mem_range'_1] at hn
    rw [freshSlots_slot State.reset.te 47 n rfl, if_pos (by omega)]
  · rw [List.mem_range'_1] at hn
    rw [freshSlots_slot State.reset.te 47 n rfl, if_neg (by omega)]
  · rw [mem_leaseIndices] at hi
    have hlt : i - 1 < Config.leaseCount := by simp only [Config.leaseCount]; omega
    simp [State.reset, Tables.powerOn, Tables.entry, nth?, show i ≠ 0 by omega, hlt]
  · show freshImage 47 = ⟨47, slotNumbers.map State.reset.te.view⟩
    rw [freshImage, MapImage.mk.injEq]
    refine ⟨rfl, ?_⟩
    rw [slotNumbers, List.range'_eq_map_range, List.map_map]
    refine List.map_congr_left fun k hk => ?_
    rw [List.mem_range] at hk
    simp only [Config.slotCount] at hk
    rw [Function.comp_apply, Tables.view, freshSlots_slot State.reset.te 47 (1 + k) rfl]
    by_cases h47 : k < 47
    · rw [if_pos h47, if_pos (by omega)]
    · rw [if_neg h47, if_neg (by omega)]

/-! ### READ_SLOT and READ_LEASE -/

theorem slotBytes_free (mark : Bool) (last : Finding) : (Slot.inArea (.free mark) last).bytes =
    [1, 0, 0, 0, 0, if mark then (if last = .active then 6 else 4) + 1 else if last = .active then 6 else 4] := by
  cases mark <;> cases last <;> rfl

theorem activityFlags_eq (last : Finding) : activityFlags last = if last = .active then 6 else 4 := by
  cases last <;> rfl

/-- Flags in the four low bits of a byte are their values added up. -/
theorem flagBits_add (a b c d : Bool) : flagBit a 0 ||| flagBit b 1 ||| flagBit c 2 ||| flagBit d 3 =
    (if a then 1 else 0) + (if b then 2 else 0) + (if c then 4 else 0) + (if d then 8 else 0) := by
  revert a b c d; decide

theorem flagByte_eq (l : Lease) : l.flagByte = (if l.warned then 1 else 0) + (if l.pinned then 2 else 0) +
    (if l.term = .openEnded then 0 else 4) + (if l.phase.noticed then 8 else 0) := by
  rw [Lease.flagByte, flagBits_add]
  cases l.term <;> rfl

theorem phaseCode_eq (l : Lease) : l.phase.code = if l.isEnding then 2 else 1 := by
  unfold Phase.code Lease.isEnding
  cases l.phase <;> rfl

/-- Settles O10: the range check, then the layout of the record. -/
theorem readSlotAndReadLeaseReport : Obligations.ReadSlotAndReadLeaseReport := by
  refine ⟨fun n s h => ⟨fun h1 h63 => ?_, fun hr => ?_⟩, fun i s h => ⟨fun h1 h48 => ?_, fun hr => ?_⟩⟩
  · rw [exec_rangedRow (.readSlot [n]) _ _ _ s _ rfl h (parse_readSlot _ n) ((within_iff _ _ _).mpr ⟨h1, h63⟩) nofun rfl]
    simp only [Tables.runCommand, Tables.report]
    congr 2
    cases s.te.slot n.toNat with
    | outside => rfl
    | inArea state last =>
      cases state with
      | free mark => exact slotBytes_free mark last
      | leased i => simp [Slot.bytes, activityFlags_eq]
      | cooling cool linger => simp [Slot.bytes, activityFlags_eq]
      | barred reason => cases reason <;> simp [Slot.bytes, activityFlags_eq, BarReason.code]
  · exact exec_outOfRangeRow (.readSlot [n]) _ _ _ s rfl h (parse_readSlot _ n) (within_eq_false _ _ _ (by
      simp only [Config.slotCount]; omega))
  · have hrow := exec_rangedRow (.readLease [i]) _ _ _ s _ rfl h (parse_readLease _ i) ((isIndex_iff _).mpr ⟨h1, h48⟩)
      nofun rfl
    simp only [Tables.runCommand, Tables.report] at hrow
    refine ⟨fun hl => ?_, fun l hl => ?_⟩
    · rw [hrow, LeaseEntry.bytes, show (s.te.entry i.toNat).lease = none from hl]
      rfl
    · rw [hrow, LeaseEntry.bytes, show (s.te.entry i.toNat).lease = some l from hl]
      dsimp only
      rw [phaseCode_eq, flagByte_eq, termBytes]
      unfold Phase.endBytes Phase.noticed
      cases l.phase with
      | active => rfl
      | ending reason deadline notice => cases notice <;> rfl
  · exact exec_outOfRangeRow (.readLease [i]) _ _ _ s rfl h (parse_readLease _ i) (isIndex_eq_false _ hr)

/-! ### The other commands that read -/

theorem byte_eq_iff_toNat (b : Byte) (n : Nat) (hn : n < 256) : b = BitVec.ofNat 8 n ↔ b.toNat = n := by
  rw [← BitVec.toNat_inj, BitVec.toNat_ofNat, Nat.mod_eq_of_lt (by omega)]

theorem stationBytes_eq (st : Station) : st.bytes = [if st.live = .joined then 1 else 2] ++ tagBytes st.tag ++
    [byte st.quota, byte st.held, byte st.leaseCount, byte st.queued, byte st.misses] ++
    (match st.live with
      | .joined => [0xFF, 0xFF]
      | .silent ms => word ms) ++
    [st.lastSeq.setWidth 8, st.nextNotice, byte st.notices.length, if st.overflow then 1 else 0] := by
  unfold Station.bytes Liveness.code Liveness.timerBytes boolByte
  cases st.live <;> rfl

theorem partBytes_eq (st : Station) (part : Byte) : st.partBytes part.toNat =
    if part = 0 then st.bytes
    else if part = 5 then byte st.lastResponse.length :: st.lastResponse
    else ((st.notices[part.toNat - 1]?).map Notice.bytes).getD [0] := by
  have h0 : part = 0 ↔ part.toNat = 0 := byte_eq_iff_toNat part 0 (by omega)
  have h5 : part = 5 ↔ part.toNat = 5 := byte_eq_iff_toNat part 5 (by omega)
  simp only [h0, h5, Station.partBytes]
  cases st.notices[part.toNat - 1]? <;> rfl

theorem entryBytes_eq (e : PendingEntry) : e.bytes = [byte e.ticket, byte e.station, byte e.count,
    (if e.contiguous then 1 else 0) + (if e.anchored then 2 else 0), byte e.priority] ++
    word (e.term.getD 0) ++ [byte e.idleLimit, byte e.wait, byte e.passed] := by
  unfold PendingEntry.bytes termBytes
  cases e.contiguous <;> cases e.anchored <;> rfl

theorem freeSlots_eq (t : Tables) : t.freeSlots = (t.area.filter fun n =>
    (t.slotState? n == some (.free false)) || (t.slotState? n == some (.free true))).length := by
  refine congrArg List.length (List.filter_congr fun n _ => ?_)
  unfold Tables.isFree
  rcases t.slotState? n with _ | (mark | _ | _ | _) <;> try rfl
  cases mark <;> rfl

theorem grantableSlots_eq (t : Tables) :
    t.grantableSlots = (t.area.filter fun n => t.slotState? n == some (.free false)).length :=
  congrArg List.length (filter_isCandidate t)

/-- Settles O11: the range check, then the layout of the record. -/
theorem otherReadCommandsReport : Obligations.OtherReadCommandsReport := by
  refine ⟨fun a part s h h1 h30 h5 => ?_, fun p s h hp e he => ?_, fun p s h hp he => ?_, fun s h => ?_, fun id s h => ?_⟩
  · have hrow := exec_rangedRow (.readStation [a, part]) _ _ _ s _ rfl h (parse_readStation _ a part)
      (by simp [isStation_iff, h1, h30, h5]) nofun rfl
    simp only [Tables.runCommand, Tables.readStation] at hrow
    refine ⟨fun hs => ?_, fun st hs => ?_⟩
    · rw [hrow, hs]; rfl
    · rw [hrow, hs]
      dsimp only [Tables.report]
      rw [partBytes_eq, stationBytes_eq]
      rfl
  · have hrow := exec_rangedRow (.readQueue [p]) _ _ _ s _ rfl h (parse_readQueue _ p) (by simpa using hp) nofun rfl
    simp only [Tables.runCommand, Tables.readQueue, he, Tables.report, entryBytes_eq] at hrow
    exact hrow
  · have hrow := exec_rangedRow (.readQueue [p]) _ _ _ s _ rfl h (parse_readQueue _ p) (by simpa using hp) nofun rfl
    simp only [Tables.runCommand, Tables.readQueue, he, Tables.report] at hrow
    exact ⟨_, hrow⟩
  · rw [exec_goodRow (.readCounts []) _ _ s _ rfl h (parse_readCounts _) nofun rfl]
    simp only [Tables.runCommand, Tables.readCounts, Tables.report, freeSlots_eq, grantableSlots_eq, Sync.code]
    cases s.trunk.sync <;> rfl
  · refine ⟨fun h1 h16 => ?_, fun hr => ?_⟩
    · rw [exec_rangedRow (.readPolicy [id]) _ _ _ s _ rfl h (parse_readPolicy _ id) ((isPolicyId_iff _).mpr ⟨h1, h16⟩) nofun rfl]
      simp [Tables.runCommand, Tables.readPolicy, Tables.report, byte]
    · exact exec_outOfRangeRow (.readPolicy [id]) _ _ _ s rfl h (parse_readPolicy _ id) (within_eq_false _ _ _ (by omega))

/-! ### Policy values and quotas -/

/-- The tables after a change of LINGER_LIMIT: slots and alarm flags may change, nothing else (R13). -/
theorem applyLingerLimit_eq (t : Tables) (limit : Nat) : t.applyLingerLimit limit = { t with
    slots := t.slots.map (Slot.barLingering limit)
    alarms := if t.slots.any (Slot.lingersAt limit) then t.alarms ||| 2 else t.alarms } := by
  unfold Tables.applyLingerLimit
  dsimp only
  split <;> rfl

/-- Settles O12: the range checks, then the value stored and, for LINGER_LIMIT, the slots barred. -/
theorem setPolicyStoresValue : Obligations.SetPolicyStoresValue := by
  intro id high low s h
  refine ⟨fun hr => exec_outOfRangeRow (.setPolicy [id, high, low]) _ _ _ s rfl h (parse_setPolicy _ id high low) ?_,
    fun h1 h16 => ⟨fun hr => exec_outOfRangeRow (.setPolicy [id, high, low]) _ _ _ s rfl h (parse_setPolicy _ id high low) ?_,
      fun hlow hhigh => ?_⟩⟩
  · rw [isPolicyId, within_eq_false _ _ _ (by omega), Bool.false_and]
  · rw [policyValueOk, within_eq_false _ _ _ hr, Bool.and_false]
  · have hv : policyValueOk id.toNat (wordOf high low) = true := (within_iff _ _ _).mpr ⟨hlow, hhigh⟩
    have hrow := exec_rangedRow (.setPolicy [id, high, low]) _ _ _ s _ rfl h (parse_setPolicy _ id high low)
      (by rw [hv, (isPolicyId_iff _).mpr ⟨h1, h16⟩]; rfl) nofun rfl
    have hid1 : id = 1 ↔ id.toNat = 1 := byte_eq_iff_toNat id 1 (by omega)
    have hid15 : id = 15 ↔ id.toNat = 15 := byte_eq_iff_toNat id 15 (by omega)
    simp only [Tables.runCommand] at hrow
    simp only [ne_eq, hid1, hid15]
    refine ⟨fun hid => ?_, fun hid => ⟨s.te.policy.store (wordOf high low) id.toNat,
      store_value_self _ _ _ ⟨by omega, h16⟩ hv, fun j hj => store_value_other _ _ _ _ hj, fun hne => ?_, fun heq => ?_⟩⟩
    · rw [hrow, Tables.setPolicy, if_pos hid]; rfl
    · rw [hrow, setPolicy_tables _ _ _ hid, if_neg hne, Tables.setPolicy, if_neg hid]; rfl
    · refine ⟨s.te.slots.map (Slot.barLingering (wordOf high low)), _, ?_, fun n => ?_, rfl⟩
      · rw [hrow, setPolicy_tables _ _ _ hid, if_pos heq, Tables.setPolicy, if_neg hid, applyLingerLimit_eq]; rfl
      · rw [slot_map _ _ rfl]
        cases s.te.slot n with
        | outside => rfl
        | inArea state last => cases state <;> rfl

theorem setQuota_present (t : Tables) (a quota : Nat) (st : Station) (h : t.station? a = some st) :
    t.setQuota a quota = ⟨(t.setStation a (some { st with quota := quota })).queuePass, .ok, []⟩ := by
  simp [Tables.setQuota, h]

theorem setQuota_absent (t : Tables) (a quota : Nat) (h : t.station? a = none) : t.setQuota a quota = ⟨t, .noStation, []⟩ := by
  simp [Tables.setQuota, h, Tables.refuse]

theorem evict_present (t : Tables) (a : Nat) (h : (t.station? a).isSome) :
    t.evict a = ⟨t.removeStation a .ownerLost, .ok, []⟩ := by
  obtain ⟨st, hst⟩ := Option.isSome_iff_exists.mp h
  simp [Tables.evict, hst]

theorem evict_absent (t : Tables) (a : Nat) (h : t.station? a = none) : t.evict a = ⟨t, .noStation, []⟩ := by
  simp [Tables.evict, h, Tables.refuse]

/-- Settles O13: the range check, then present or absent. -/
theorem setQuotaAndEvictNameAStation : Obligations.SetQuotaAndEvictNameAStation := by
  refine ⟨fun a quota s h => ⟨fun h1 h30 h63 => ?_, fun hr => ?_⟩, fun a s h => ⟨fun h1 h30 => ?_, fun hr => ?_⟩⟩
  · have hrow := fun o => exec_rangedRow (.setQuota [a, quota]) _ _ _ s o rfl h (parse_setQuota _ a quota)
      (by simp [isStation_iff, h1, h30, h63]) nofun
    exact ⟨fun hs => hrow _ (setQuota_absent _ _ _ hs), fun st hs => hrow _ (setQuota_present _ _ _ st hs)⟩
  · refine exec_outOfRangeRow (.setQuota [a, quota]) _ _ _ s rfl h (parse_setQuota _ a quota) ?_
    rw [← Bool.not_eq_true, Bool.and_eq_true, isStation_iff, decide_eq_true_iff]
    omega
  · have hrow := fun o => exec_rangedRow (.evict [a]) _ _ _ s o rfl h (parse_evict _ a)
      ((isStation_iff _).mpr ⟨h1, h30⟩) nofun
    exact ⟨fun hs => hrow _ (evict_absent _ _ hs), fun hs => hrow _ (evict_present _ _ hs)⟩
  · exact exec_outOfRangeRow (.evict [a]) _ _ _ s rfl h (parse_evict _ a) (isStation_eq_false _ hr)

end Sys2Proof.Machine
end

section
/-! SUPPORT. The management commands that act on leases and on the stream area, and those refused (10.3): HOUSE_GRANT, PIN,
REVOKE, RESIZE, malformed commands (O14, O15, O18, O21). -/

namespace Sys2Proof.Machine

set_option Elab.async false

/-! ### The lowest FREE entry -/

theorem freeIndex?_eq_some_iff (t : Tables) (i : Nat) : t.freeIndex? = some i ↔ t.lowestFree i := by
  unfold Tables.freeIndex? Tables.lowestFree leaseIndices
  rw [List.find?_range'_eq_some]
  simp only [Option.isNone_iff_eq_none, List.mem_range'_1, Bool.not_eq_true', Option.isNone_eq_false_iff]
  exact ⟨fun ⟨hi, hr, hj⟩ => ⟨hr.1, by omega, hi, hj⟩, fun ⟨h1, h48, hi, hj⟩ => ⟨hi, ⟨h1, by omega⟩, hj⟩⟩

theorem freeIndex?_eq_none_iff (t : Tables) : t.freeIndex? = none ↔ t.noneFree := by
  unfold Tables.freeIndex? Tables.noneFree leaseIndices
  simp only [List.find?_eq_none, List.mem_range'_1, Bool.not_eq_true, Option.isNone_eq_false_iff]
  exact ⟨fun h j h1 h48 => h j ⟨h1, by omega⟩, fun h j hj => h j hj.1 (by omega)⟩

theorem isFree_iff (t : Tables) (n : Nat) : t.isFree n = true ↔ ∃ mark, t.slotState? n = some (.free mark) := by
  unfold Tables.isFree
  cases t.slotState? n with
  | none => simp
  | some st => cases st <;> simp

/-! ### HOUSE_GRANT -/

theorem word_wordOf (high low : Byte) : word (wordOf high low) = [high, low] := by
  have hlow := low.isLt
  have hhigh := high.isLt
  simp only [word, wordOf, byte]
  congr 1
  · exact BitVec.eq_of_toNat_eq (by rw [BitVec.toNat_ofNat]; omega)
  · exact congrArg (· :: []) (BitVec.eq_of_toNat_eq (by rw [BitVec.toNat_ofNat]; omega))

theorem nodup_map_toNat (ns : List Byte) (h : ns.Nodup) : (ns.map BitVec.toNat).Nodup :=
  h.map fun _ _ hab => BitVec.eq_of_toNat_eq hab

theorem parse_houseGrant_named (area : Nat) (ns : List Byte) (high low pinned : Byte) (h1 : 1 ≤ ns.length)
    (h8 : ns.length ≤ 8) (hnd : ns.Nodup) (hp : pinned.toNat ≤ 1)
    (hn : ∀ n ∈ ns, 1 ≤ n.toNat ∧ n.toNat ≤ 63 ∧ n.toNat ≤ area) :
    parseCommand area (0x09 :: byte ns.length :: (ns ++ [high, low, pinned])) =
      .good (.houseGrant (ascending area (ns.map BitVec.toNat)) (wordOf high low) (pinned == 1)) := by
  have hlen : (byte ns.length).toNat = ns.length := by rw [byte, BitVec.toNat_ofNat]; omega
  have harea : ns.all (fun n => inArea area n.toNat) = true := by
    rw [List.all_eq_true]
    intro n hmem
    obtain ⟨hlow, h63, hsa⟩ := hn n hmem
    exact (inArea_iff _ _).mpr ⟨hlow, hsa, h63⟩
  rw [parse_houseGrant]
  simp [parseHouseGrant, hlen, Parsed.ranged, (within_iff 1 ns.length 8).mpr ⟨h1, h8⟩, harea, nodup_map_toNat ns hnd, hp,
    Function.comp_def]

theorem mem_ascending (area : Nat) (ns : List Byte) (n : Nat) (hn : ∀ b ∈ ns, 1 ≤ b.toNat ∧ b.toNat ≤ area) :
    n ∈ ascending area (ns.map BitVec.toNat) ↔ ∃ b ∈ ns, b.toNat = n := by
  simp only [ascending, List.mem_filter, List.mem_range'_1, List.contains_iff_mem, List.mem_map]
  refine ⟨fun h => h.2, fun ⟨b, hb, hbn⟩ => ⟨?_, b, hb, hbn⟩⟩
  have := hn b hb
  omega

theorem houseGrant_inUse (t : Tables) (slots : List Nat) (term : Nat) (pinned : Bool) (h : ∃ n ∈ slots, t.isFree n = false) :
    t.houseGrant slots term pinned = ⟨t, .slotInUse, []⟩ := by
  obtain ⟨n, hn, hf⟩ := h
  unfold Tables.houseGrant
  rw [if_neg (fun hall => by simp [List.all_eq_true.mp hall n hn] at hf)]
  rfl

theorem houseGrant_full (t : Tables) (slots : List Nat) (term : Nat) (pinned : Bool) (h : ∀ n ∈ slots, t.isFree n = true)
    (hi : t.freeIndex? = none) : t.houseGrant slots term pinned = ⟨t.raise .tableFull, .tableFull, []⟩ := by
  unfold Tables.houseGrant
  rw [if_pos (List.all_eq_true.mpr h), hi]
  rfl

theorem houseGrant_granted (t : Tables) (slots : List Nat) (term : Nat) (pinned : Bool) (i : Nat)
    (h : ∀ n ∈ slots, t.isFree n = true) (hi : t.freeIndex? = some i) : t.houseGrant slots term pinned =
      ⟨t.createLease i (.fresh Config.house slots (if term = 0 then none else some term) 0 pinned), .ok,
        (t.handle i).bytes ++ slotListBytes slots ++ termBytes (if term = 0 then none else some term)⟩ := by
  unfold Tables.houseGrant
  rw [if_pos (List.all_eq_true.mpr h), hi]

/-- A term of 0 periods asks for an open one. -/
theorem termBytes_requested (term : Nat) : termBytes (if term = 0 then none else some term) = word term := by
  unfold termBytes
  split
  · next h => rw [h]; rfl
  · rfl

theorem ofTerm_requested (term : Nat) : LeaseTerm.ofTerm (if term = 0 then none else some term) =
    if term = 0 then .openEnded else .periods term term := by
  split <;> rfl

/-- Settles O14: the named slots put in ascending order, then the three outcomes of the command. -/
theorem houseGrantCreatesHouseLease : Obligations.HouseGrantCreatesHouseLease := by
  intro ns high low pinned s h h1 h8 hnd hp hn
  have hmem := fun n => mem_ascending s.te.policy.streamArea ns n fun b hb => ⟨(hn b hb).1, (hn b hb).2.2⟩
  have hrow := fun o => exec_goodRow (.houseGrant (byte ns.length :: (ns ++ [high, low, pinned]))) _ _ s o rfl h
    (parse_houseGrant_named _ ns high low pinned h1 h8 hnd hp hn) nofun
  have hfree : (∀ n ∈ ns, ∃ mark, s.te.slotState? n.toNat = some (.free mark)) →
      ∀ n ∈ ascending s.te.policy.streamArea (ns.map BitVec.toNat), s.te.isFree n = true := by
    intro hf n hin
    obtain ⟨b, hb, rfl⟩ := (hmem n).mp hin
    exact (isFree_iff _ _).mpr (hf b hb)
  refine ⟨fun ⟨b, hb, hbusy⟩ => hrow _ (houseGrant_inUse _ _ _ _ ⟨b.toNat, (hmem _).mpr ⟨b, hb, rfl⟩, ?_⟩),
    fun hf hnone => hrow _ (houseGrant_full _ _ _ _ (hfree hf) ((freeIndex?_eq_none_iff _).mpr hnone)),
    fun hf i hi => ⟨_, (List.pairwise_lt_range' 1).filter _, hmem, ?_⟩⟩
  · rw [← Bool.not_eq_true, isFree_iff]
    exact fun ⟨mark, hm⟩ => hbusy mark hm
  · rw [hrow _ (houseGrant_granted _ _ _ _ i (hfree hf) ((freeIndex?_eq_some_iff _ _).mpr hi)), termBytes_requested,
      word_wordOf, Lease.fresh, ofTerm_requested]
    rfl

/-! ### PIN and REVOKE -/

theorem pin_stale (t : Tables) (h : Handle) (on : Bool) (hl : t.validLease? h = none) :
    t.pin h on = ⟨t, .staleHandle, []⟩ := by
  simp [Tables.pin, hl, Tables.refuse]

theorem pin_same (t : Tables) (h : Handle) (l : Lease) (hl : t.validLease? h = some l) (ha : l.phase = .active) :
    t.pin h l.pinned = ⟨t, .ok, h.bytes ++ [boolByte l.pinned]⟩ := by
  simp [Tables.pin, hl, (isEnding_eq_false_iff l).mpr ha]

theorem pin_changes (t : Tables) (h : Handle) (l : Lease) (on : Bool) (hl : t.validLease? h = some l) (ha : l.phase = .active)
    (hp : l.pinned ≠ on) :
    t.pin h on = ⟨t.setLease h.index { l with pinned := on, idleCount := 0 }, .ok, h.bytes ++ [boolByte on]⟩ := by
  simp [Tables.pin, hl, (isEnding_eq_false_iff l).mpr ha, hp]

theorem pin_ending (t : Tables) (h : Handle) (l : Lease) (on : Bool) (hl : t.validLease? h = some l) (ha : l.phase ≠ .active) :
    t.pin h on = ⟨t, .notAllowed, []⟩ := by
  have : l.isEnding = true := Bool.not_eq_false _ ▸ (isEnding_eq_false_iff l).not.mpr ha
  simp [Tables.pin, hl, this, Tables.refuse]

theorem revoke_stale (t : Tables) (h : Handle) (immediate : Bool) (hl : t.validLease? h = none) :
    t.revoke h immediate = ⟨t, .staleHandle, []⟩ := by
  simp [Tables.revoke, hl, Tables.refuse]

theorem revoke_soft (t : Tables) (h : Handle) (l : Lease) (hl : t.validLease? h = some l) :
    t.revoke h false = ⟨t.revokeSoftly h.index l, .ok, h.bytes ++ [2, 2]⟩ := by
  simp [Tables.revoke, hl, EndReason.code]

theorem revoke_immediate (t : Tables) (h : Handle) (l : Lease) (hl : t.validLease? h = some l) :
    t.revoke h true = ⟨t.retire h.index l .revoked true, .ok, h.bytes ++ [0, 0]⟩ := by
  simp [Tables.revoke, hl]

/-- A handle is sent back in the bytes it came in. -/
theorem handleOf_bytes (i e : Byte) : (handleOf i e).bytes = [i, e] := by
  simp [handleOf, Handle.bytes, byte]

theorem boolByte_selector (on : Byte) (h : on.toNat ≤ 1) : boolByte (on == 1) = on := by
  have h01 : on.toNat = 0 ∨ on.toNat = 1 := by omega
  rcases h01 with h0 | h0
  · rw [show on = 0 from BitVec.eq_of_toNat_eq h0]; rfl
  · rw [show on = 1 from BitVec.eq_of_toNat_eq h0]; rfl

/-- The two rows of PIN take one command. -/
theorem pinRow_bytes (row : Instr) (i e on : Byte) (h : row = .pinOn [i, e, on] ∧ on = 1 ∨ row = .pinOff [i, e, on] ∧ on = 0) :
    commandBytes row = some [0x0A, i, e, on] ∧ on.toNat ≤ 1 := by
  rcases h with ⟨rfl, rfl⟩ | ⟨rfl, rfl⟩ <;> exact ⟨rfl, by decide⟩

/-- Settles O15: a row with its companion's selector has no command; otherwise by the lease the handle names. -/
theorem pinAndRevokeActOnLease : Obligations.PinAndRevokeActOnLease := by
  refine ⟨fun i e s => ⟨rfl, rfl, rfl, rfl⟩, fun i e on row s hrow h => ?_, fun i e s h => ?_, fun i e s h => ?_⟩
  · obtain ⟨hbytes, hon⟩ := pinRow_bytes row i e on hrow
    have hgood := fun o (hi : isIndex i.toNat = true) => exec_rangedRow row _ _ _ s o hbytes h
      (parse_pin _ i e on) (by rw [hi, decide_eq_true hon]; rfl) nofun
    refine ⟨fun l hl => ?_, fun hs => ?_, fun hr => ?_⟩
    · obtain ⟨hv, hi⟩ := validLease?_names _ i e l hl
      refine ⟨fun ha hp => ?_, fun ha hp => ?_, fun ha => hgood _ hi (pin_ending _ _ l _ hv ha)⟩
      · have hrow := hgood _ hi (hp ▸ pin_same _ _ l hv ha)
        rw [handleOf_bytes, boolByte_selector on hon] at hrow
        exact hrow
      · have hrow := hgood _ hi (pin_changes _ _ l _ hv ha hp)
        rw [handleOf_bytes, boolByte_selector on hon] at hrow
        exact hrow
    · obtain ⟨hv, hi⟩ := validLease?_stale _ i e hs
      exact hgood _ hi (pin_stale _ _ _ hv)
    · exact exec_outOfRangeRow row _ _ _ s hbytes h (parse_pin _ i e on) (by rw [isIndex_eq_false _ hr]; rfl)
  · have hgood := fun o (hi : isIndex i.toNat = true) => exec_rangedRow (.revokeSoft [i, e, 0]) _ _ _ s o rfl h
      (parse_revoke _ i e 0) (by rw [hi]; rfl) nofun
    refine ⟨fun l hl => ?_, fun hs => ?_⟩
    · obtain ⟨hv, hi⟩ := validLease?_names _ i e l hl
      have hrow := hgood _ hi (revoke_soft _ _ l hv)
      rw [handleOf_bytes, Tables.revokeSoftly] at hrow
      exact ⟨fun ha => by rw [ha] at hrow; exact hrow, fun reason deadline notice ha => by rw [ha] at hrow; exact hrow⟩
    · obtain ⟨hv, hi⟩ := validLease?_stale _ i e hs
      exact hgood _ hi (revoke_stale _ _ _ hv)
  · have hgood := fun o (hi : isIndex i.toNat = true) => exec_rangedRow (.revokeImmediate [i, e, 1]) _ _ _ s o rfl h
      (parse_revoke _ i e 1) (by rw [hi]; rfl) nofun
    refine ⟨fun l hl => ?_, fun hs => ?_⟩
    · obtain ⟨hv, hi⟩ := validLease?_names _ i e l hl
      have hrow := hgood _ hi (revoke_immediate _ _ l hv)
      rw [handleOf_bytes] at hrow
      exact hrow
    · obtain ⟨hv, hi⟩ := validLease?_stale _ i e hs
      exact hgood _ hi (revoke_stale _ _ _ hv)

/-! ### RESIZE -/

theorem setSlot_outside_slot (t : Tables) (n m : Nat) :
    (t.setSlot n .outside).slot m = if m = n then .outside else t.slot m := by
  by_cases hm : m = n
  · subst hm
    rw [if_pos rfl]
    by_cases hr : m = 0 ∨ t.slots.length < m
    · have hnone : nth? t.slots m = none := by
        unfold nth?
        split
        · rfl
        · exact List.getElem?_eq_none (by omega)
      simp [Tables.setSlot, Tables.slot, nth?_setNth_past _ m m _ hr, hnone]
    · exact setSlot_slot_self t m _ (by omega) (by omega)
  · rw [if_neg hm, setSlot_slot_ne t n m _ hm]

/-- OUTSIDE may be written at any number: one without a record reads as OUTSIDE. -/
theorem setSlots_outside_slot (ns : List Nat) (m : Nat) (t : Tables) :
    (t.setSlots ns .outside).slot m = if m ∈ ns then .outside else t.slot m := by
  unfold Tables.setSlots
  induction ns generalizing t with
  | nil => rfl
  | cons n ns ih =>
    rw [List.foldl_cons, ih, setSlot_outside_slot]
    by_cases hn : m = n <;> simp [hn]

theorem stopsShrink_iff (v : Slot) : v.stopsShrink = true ↔
    ∃ last, (∃ i, v = .inArea (.leased i) last) ∨ ∃ cool linger, v = .inArea (.cooling cool linger) last := by
  cases v with
  | outside => simp [Slot.stopsShrink]
  | inArea state last => cases state <;> simp [Slot.stopsShrink]

theorem resize_busy (t : Tables) (area n : Nat) (hn : area < n ∧ n ≤ t.policy.streamArea)
    (hs : (t.slot n).stopsShrink = true) : t.resize area = ⟨t, .areaInUse, []⟩ := by
  unfold Tables.resize Tables.shrink
  rw [if_neg (by omega), if_pos (by omega), if_pos (List.any_eq_true.mpr ⟨n, (mem_slotsBetween _ _ _).mpr hn, hs⟩)]
  rfl

theorem resize_shrinks (t : Tables) (area : Nat) (h : area < t.policy.streamArea)
    (hs : ∀ n, area < n → n ≤ t.policy.streamArea → (t.slot n).stopsShrink = false) : t.resize area =
      ⟨((t.setSlots (slotsBetween area t.policy.streamArea) .outside).setArea area).refuseEntries
        (fun e => !((t.setSlots (slotsBetween area t.policy.streamArea) .outside).setArea area).possible e.count e.contiguous)
        .noRoom, .ok, []⟩ := by
  unfold Tables.resize Tables.shrink
  rw [if_neg (by omega), if_pos h, if_neg]
  rw [List.any_eq_true]
  rintro ⟨n, hn, hb⟩
  obtain ⟨hlow, hhigh⟩ := (mem_slotsBetween _ _ _).mp hn
  rw [hs n hlow hhigh] at hb
  cases hb

theorem resize_grows (t : Tables) (area : Nat) (h : t.policy.streamArea < area) : t.resize area =
    ⟨((t.setSlots (slotsBetween t.policy.streamArea area) (.inArea (.free false) .quiet)).setArea area).queuePass, .ok, []⟩ := by
  unfold Tables.resize
  rw [if_neg (by omega), if_neg (by omega)]
  rfl

/-- Slots written and SA moved: the slots and SA alone change. -/
theorem setSlots_setArea (t : Tables) (ns : List Nat) (v : Slot) (area : Nat) : (t.setSlots ns v).setArea area =
    { t with slots := (t.setSlots ns v).slots, policy := { t.policy with streamArea := area } } := by
  obtain ⟨slots, h, -⟩ := setSlots_eq ns v t
  rw [h]
  rfl

/-- Settles O18: the range check, then the three ways SA can move. -/
theorem resizeMovesBoundary : Obligations.ResizeMovesBoundary := by
  intro area s h
  refine ⟨fun hr => exec_outOfRangeRow (.resize [area]) _ _ _ s rfl h (parse_resize _ area) (within_eq_false _ _ _ hr),
    fun h8 h63 hsized => ?_⟩
  have hrow := fun o => exec_rangedRow (.resize [area]) _ _ _ s o rfl h (parse_resize _ area)
    ((within_iff _ _ _).mpr ⟨h8, h63⟩) nofun
  refine ⟨fun heq => hrow _ (if_pos heq), fun ⟨n, last, hlow, hhigh, hst⟩ => ?_, fun hlt hfree => ?_, fun hlt => ?_⟩
  · exact hrow _ (resize_busy _ _ n ⟨hlow, hhigh⟩ ((stopsShrink_iff _).mpr ⟨last, hst⟩))
  · have hstop : ∀ n, area.toNat < n → n ≤ s.te.policy.streamArea → (s.te.slot n).stopsShrink = false := by
      intro n hlow hhigh
      rw [← Bool.not_eq_true, stopsShrink_iff]
      rintro ⟨last, ⟨i, hi⟩ | ⟨cool, linger, hc⟩⟩
      · exact (hfree n last hlow hhigh).1 i hi
      · exact (hfree n last hlow hhigh).2 cool linger hc
    refine ⟨(s.te.setSlots (slotsBetween area.toNat s.te.policy.streamArea) .outside).slots, fun n => ?_, ?_⟩
    · exact (setSlots_outside_slot _ n s.te).trans (if_congr (mem_slotsBetween _ _ _) rfl rfl)
    · have := hrow _ (resize_shrinks _ _ hlt hstop)
      rw [setSlots_setArea] at this
      exact this
  · refine ⟨(s.te.setSlots (slotsBetween s.te.policy.streamArea area.toNat) (.inArea (.free false) .quiet)).slots,
      fun n => ?_, ?_⟩
    · refine (setSlots_slot _ _ n s.te fun m hm => ?_).trans (if_congr (mem_slotsBetween _ _ _) rfl rfl)
      have := (mem_slotsBetween _ _ _).mp hm
      have := hsized.1
      omega
    · have := hrow _ (resize_grows _ _ hlt)
      rw [setSlots_setArea] at this
      exact this

/-! ### Malformed commands -/

theorem fields0_length (p : Parsed) (fields : List Byte) (h : fields.length ≠ 0) : fields0 p fields = .bad .badCommand := by
  cases fields with
  | nil => exact absurd rfl h
  | cons => rfl

theorem fields1_length (p : Byte → Parsed) (fields : List Byte) (h : fields.length ≠ 1) :
    fields1 p fields = .bad .badCommand := by
  unfold fields1
  split
  · exact absurd rfl h
  · rfl

theorem fields2_length (p : Byte → Byte → Parsed) (fields : List Byte) (h : fields.length ≠ 2) :
    fields2 p fields = .bad .badCommand := by
  unfold fields2
  split
  · exact absurd rfl h
  · rfl

theorem fields3_length (p : Byte → Byte → Byte → Parsed) (fields : List Byte) (h : fields.length ≠ 3) :
    fields3 p fields = .bad .badCommand := by
  unfold fields3
  split
  · exact absurd rfl h
  · rfl

theorem parse_badLength (area : Nat) (code : Byte) (n : Nat) (fields : List Byte) (h : (code, n) ∈ tableLength)
    (hl : fields.length + 1 ≠ n) : parseCommand area (code :: fields) = .bad .badCommand := by
  simp only [tableLength, List.mem_cons, Prod.mk.injEq, List.not_mem_nil, or_false] at h
  rcases h with ⟨rfl, rfl⟩ | ⟨rfl, rfl⟩ | ⟨rfl, rfl⟩ | ⟨rfl, rfl⟩ | ⟨rfl, rfl⟩ | ⟨rfl, rfl⟩ | ⟨rfl, rfl⟩ | ⟨rfl, rfl⟩ |
    ⟨rfl, rfl⟩ | ⟨rfl, rfl⟩ | ⟨rfl, rfl⟩ | ⟨rfl, rfl⟩ | ⟨rfl, rfl⟩ | ⟨rfl, rfl⟩ | ⟨rfl, rfl⟩ | ⟨rfl, rfl⟩
  exacts [fields1_length _ _ (by omega), fields1_length _ _ (by omega), fields2_length _ _ (by omega),
    fields1_length _ _ (by omega), fields0_length _ _ (by omega), fields1_length _ _ (by omega),
    fields3_length _ _ (by omega), fields2_length _ _ (by omega), fields3_length _ _ (by omega),
    fields3_length _ _ (by omega), fields1_length _ _ (by omega), fields1_length _ _ (by omega),
    fields1_length _ _ (by omega), fields1_length _ _ (by omega), fields0_length _ _ (by omega),
    fields0_length _ _ (by omega)]

theorem parse_houseGrant_bad (area : Nat) (count : Byte) (rest : List Byte)
    (h : count.toNat = 0 ∨ 8 < count.toNat ∨ rest.length ≠ count.toNat + 3 ∨
      (∃ n ∈ rest.take count.toNat, n.toNat = 0 ∨ area < n.toNat) ∨ ¬ (rest.take count.toNat).Nodup ∨
      ∃ b, rest.getLast? = some b ∧ 1 < b.toNat) : parseCommand area (0x09 :: count :: rest) = .bad .badValue := by
  rw [parse_houseGrant, parseHouseGrant]
  split
  · next high low pinned hdrop =>
    refine (congrArg (Parsed.ranged · _) ?_).trans (ranged_false _)
    rw [← Bool.not_eq_true]
    simp only [Bool.and_eq_true, within_iff, List.all_eq_true, decide_eq_true_eq, beq_iff_eq, inArea_iff]
    rintro ⟨⟨⟨⟨⟨h1, h8⟩, hlen⟩, harea⟩, hnd⟩, hpin⟩
    have hlast : rest.getLast? = some pinned := by
      rw [← List.take_append_drop count.toNat rest, hdrop]; simp
    rcases h with h | h | h | ⟨n, hn, hbad⟩ | h | ⟨b, hb, hbad⟩
    · omega
    · omega
    · exact h hlen
    · have := harea n.toNat (List.mem_map_of_mem hn); omega
    · exact h (List.Nodup.of_map _ hnd)
    · rw [hlast] at hb; cases hb; omega
  · rfl

/-- Settles O21: the row and the own step of a refused command, then the forms that are refused. -/
theorem malformedCommandsRefused : Obligations.MalformedCommandsRefused := by
  refine ⟨fun i c r s hi h hp => exec_badRow i c r s hi h hp, fun c r s hpend h hp => ?_,
    fun area code fields h => parse_unknown area code fields h, fun area code n fields h hl => parse_badLength area code n fields h hl,
    fun area i e v h => ?_, fun area a part h => ?_, fun area position h => ?_, fun area => rfl, parse_houseGrant_bad⟩
  · have hown : step s = .next (s.performCommand c) := by
      simp [step, hpend, State.ownStep, nextOperation?_busy s c h, State.perform]
    rw [hown, ← manage_busy s c h, manage_bad s c r h hp]
  · have hrange : (isIndex i.toNat && decide (v.toNat ≤ 1)) = false := by
      rw [← Bool.not_eq_true, Bool.and_eq_true, isIndex_iff, decide_eq_true_iff]; omega
    rw [parse_pin, parse_revoke, hrange]
    exact ⟨rfl, rfl⟩
  · have hrange : (isStation a.toNat && decide (part.toNat ≤ 5)) = false := by
      rw [← Bool.not_eq_true, Bool.and_eq_true, isStation_iff, decide_eq_true_iff]; omega
    rw [parse_readStation, hrange]
    rfl
  · rw [parse_readQueue, decide_eq_false (by omega)]
    rfl

end Sys2Proof.Machine
end

section
/-! SUPPORT. What several operations share: postings, grants, entry to ENDING, retirements, new pending entries, the queue
pass (O46 to O49, O51, O52). -/

namespace Sys2Proof.Machine

set_option Elab.async false

/-! ### Postings -/

theorem post_absent (t : Tables) (a : Nat) (c : NoticeContent) (h : t.station? a = none) : t.post a c = t := by
  simp [Tables.post, h]

theorem post_room (t : Tables) (a : Nat) (c : NoticeContent) (st : Station) (h : t.station? a = some st)
    (hr : st.notices.length < 4) : t.post a c = t.setStation a (some (st.queueNotice c)) := by
  simp [Tables.post, h, Config.noticeMax, hr]

theorem post_full (t : Tables) (a : Nat) (c : NoticeContent) (st : Station) (h : t.station? a = some st)
    (hf : 4 ≤ st.notices.length) :
    t.post a c = (t.setStation a (some { st with overflow := true })).raise .noticeOverflow := by
  simp [Tables.post, h, Config.noticeMax, Nat.not_lt.mpr hf]

/-- Settles O46: by the station and the room in its queue. -/
theorem postingQueuesOrOverflows : Obligations.PostingQueuesOrOverflows := by
  intro a c t
  exact ⟨post_absent t a c, fun hs => house_not_present t hs.2.2, fun st h => ⟨post_room t a c st h, post_full t a c st h⟩⟩

/-! ### Grants and retirements -/

theorem entry_of_leases_eq {t u : Tables} (h : u.leases = t.leases) (i : Nat) : u.entry i = t.entry i := by
  unfold Tables.entry
  rw [h]

theorem createLease_slot (t : Tables) (i n : Nat) (l : Lease) : (t.createLease i l).slot n =
    ((t.setLease i l).setSlotStates l.slots (.leased i)).slot n :=
  slot_eq_of_slots_eq (createLease_slots t i l) n

theorem vacate_slot (t : Tables) (i n : Nat) (l : Lease) : (t.vacate i l).slot n =
    ((t.freeEntry i).setSlotStates l.slots (.cooling t.policy.coolPeriods 0)).slot n :=
  slot_eq_of_slots_eq (vacate_slots t i l) n

/-- Settles O47: each table of the store after the grant. -/
theorem grantCreatesLease : Obligations.GrantCreatesLease := by
  rintro i l t u hs h1 h48 rfl
  have hentry := fun j => entry_of_leases_eq (createLease_leases t i l) j
  refine ⟨?_, fun j hj => ?_, fun n => ?_, fun a => ?_, createLease_queue t i l, createLease_ticket t i l,
    createLease_policy t i l, createLease_mapEpoch t i l, createLease_reference t i l, createLease_alarms t i l⟩
  · rw [hentry, setLease_entry_self t i l h1 (by have := hs.2.1; omega)]
  · rw [hentry, setLease_entry_ne t i j l hj]
  · rw [createLease_slot, setSlotStates_slot, slot_eq_of_slots_eq (setLease_slots t i l)]
    cases t.slot n <;> rfl
  · rw [createLease_station?]
    split
    · next h => rw [h]; rfl
    · rfl

/-- Postings to one list and then to one more address are postings to the whole list. -/
theorem retire_postings (t : Tables) (i : Nat) (l : Lease) (reason : RetireReason) (tell : Bool) :
    t.retire i l reason tell = (l.listeners ++ if tell then [l.owner] else []).foldl
      (fun v a => v.post a (.ended (t.handle i) reason)) (t.vacate i l) := by
  rw [retire_eq, List.foldl_append]
  cases tell <;> rfl

/-- Settles O49: the entry vacated, then the postings. -/
theorem retirementFreesAndTells : Obligations.RetirementFreesAndTells := by
  intro i l reason tell t hs h1 h48
  have hentry := fun j => entry_of_leases_eq (vacate_leases t i l) j
  refine ⟨t.vacate i l, retire_postings t i l reason tell, ?_, fun j hj => ?_, fun n => ?_, fun a => ?_, vacate_queue t i l,
    vacate_ticket t i l, vacate_policy t i l, vacate_mapEpoch t i l, vacate_reference t i l, vacate_alarms t i l⟩
  · rw [hentry, freeEntry_entry_self t i h1 (by have := hs.2.1; omega)]
  · rw [hentry, freeEntry_entry_ne t i j hj]
  · rw [vacate_slot, setSlotStates_slot, slot_eq_of_slots_eq (freeEntry_slots t i)]
    cases t.slot n <;> rfl
  · rw [vacate_station?]
    split
    · next h => rw [h]; rfl
    · rfl

/-! ### Entry to ENDING -/

theorem noticeRoom_absent (t : Tables) (a : Nat) (h : t.station? a = none) : t.noticeRoom a = none := by
  simp [Tables.noticeRoom, h]

theorem noticeRoom_room (t : Tables) (a : Nat) (st : Station) (h : t.station? a = some st) (hr : st.notices.length < 4) :
    t.noticeRoom a = some st.nextNotice := by
  simp [Tables.noticeRoom, h, Config.noticeMax, hr]

theorem noticeRoom_full (t : Tables) (a : Nat) (st : Station) (h : t.station? a = some st) (hf : 4 ≤ st.notices.length) :
    t.noticeRoom a = none := by
  simp [Tables.noticeRoom, h, Config.noticeMax, Nat.not_lt.mpr hf]

/-- Settles O48: the notice number that is recorded is the one the posting gives, in each case of the posting. -/
theorem enteringEndingPostsAndRecords : Obligations.EnteringEndingPostsAndRecords := by
  intro i l reason t
  refine ⟨fun h => ?_, fun st h => ⟨fun hr => ?_, fun hf => ?_⟩⟩
  · rw [Tables.enterEnding, noticeRoom_absent t _ h, post_absent]
    exact h
  · rw [Tables.enterEnding, noticeRoom_room t _ st h hr]
    exact post_room _ _ _ st h hr
  · rw [Tables.enterEnding, noticeRoom_full t _ st h hf]
    exact post_full _ _ _ st h hf

/-! ### New pending entries -/

theorem nextTicket_eq (n : Nat) (h : n ≤ 255) : nextTicket n = if n = 255 then 1 else n + 1 := by
  unfold nextTicket
  split <;> split <;> omega

/-- The counter's values one after another, each the next of the one before. -/
theorem ticketsAfter_isChain (n k : Nat) :
    ((List.range k).map (ticketAfter n)).IsChain fun x y => y = if x = 255 then 1 else x + 1 := by
  rw [List.isChain_iff_getElem]
  intro j hj
  rw [List.getElem_map, List.getElem_map, List.getElem_range, List.getElem_range, ← nextTicket_ticketAfter,
    nextTicket_eq _ (ticketAfter_range n j).2]

/-- Settles O51: the ticket by its advances, the place by the split at the first entry of lower priority. -/
theorem newEntryTakesItsPlace : Obligations.NewEntryTakesItsPlace := by
  intro a g t u ticket hq he
  obtain ⟨hlen, hnd, hrange, hord, ht1, ht255⟩ := hq
  rw [enqueue_eq, Prod.mk.injEq] at he
  obtain ⟨hu, htk⟩ := he
  obtain ⟨k, -, hk, hadv, -⟩ := freeTicket_advances t.queue t.queue.length t.ticket ht1 ht255
  have hfresh := freeTicket_fresh t.queue t.ticket ht1 ht255 (by omega)
  replace hk : ticket = ticketAfter t.ticket k := htk.trans hk
  replace hfresh : ∀ e ∈ t.queue, e.ticket ≠ ticket := htk ▸ hfresh
  obtain ⟨hr1, hr255⟩ := ticketAfter_range t.ticket k
  have hqueue : u.queue = insertByPriority (t.newEntry a g) t.queue := by rw [hu, modifyStation_queue]
  have hticket : u.ticket = nextTicket ticket := by rw [hu, modifyStation_ticket, htk]
  have hstation : ∀ b, u.station? b =
      if b = a then (t.station? a).map fun st => { st with queued := st.queued + 1 } else t.station? b := fun b => by
    rw [hu, modifyStation_station?]; rfl
  refine ⟨hfresh, hk ▸ hr1, hk ▸ hr255, fun hnone => ?_, ⟨(List.range k).map (ticketAfter t.ticket), ?_, ?_, fun n hn => ?_⟩,
    ?_, ⟨t.queue.takeWhile fun x => g.priority ≤ x.priority, t.queue.dropWhile fun x => g.priority ≤ x.priority,
      List.takeWhile_append_dropWhile.symm, ?_, takeWhile_priority t.queue g.priority,
      dropWhile_priority t.queue g.priority hord⟩, ?_, fun b hb => ?_, ?_⟩
  · rcases Nat.eq_zero_or_pos k with rfl | hpos
    · rw [hk, ticketAfter_zero _ ht1 ht255]
    · obtain ⟨e, hmem, het⟩ := hadv 0 hpos
      rw [ticketAfter_zero _ ht1 ht255] at het
      exact absurd het (hnone e hmem)
  · rw [hk]
    cases k with
    | zero => simp [ticketAfter_zero _ ht1 ht255]
    | succ k => simp [List.range_succ_eq_map, ticketAfter_zero _ ht1 ht255]
  · have := ticketsAfter_isChain t.ticket (k + 1)
    rwa [List.range_succ, List.map_append, List.map_singleton, ← hk] at this
  · obtain ⟨j, hj, rfl⟩ := List.mem_map.mp hn
    exact hadv j (List.mem_range.mp hj)
  · rw [hticket, nextTicket_eq _ (hk ▸ hr255)]
  · rw [hqueue, insertByPriority, htk]
    rfl
  · rw [hstation, if_pos rfl]
  · rw [hstation, if_neg hb]
  · rw [hu]
    unfold Tables.modifyStation
    split <;> rfl

/-! ### The queue pass -/

/-- A pass visits the queue in its order. -/
theorem passWalk_entries (es : List PendingEntry) (t : Tables) : (passWalk es t).2.map Prod.fst = es := by
  induction es generalizing t with
  | nil => rfl
  | cons e es ih =>
    by_cases h : (t.visit e).2 = .stayed ∧ e.anchored = true
    · rw [passWalk_cons_stop t e es h.1 h.2]
      simp [Function.comp_def]
    · rw [passWalk_cons_go t e es (by grind), List.map_cons, ih]

/-- What pass-over counting leaves of the entry at a place of the pass. -/
def countedAt (limit : Nat) (fates : List (PendingEntry × Fate)) (k : Nat) : Option PendingEntry :=
  match fates[k]? with
  | some (e, .stayed) => some (.anchor limit (if (fates.drop (k + 1)).any fun x => x.2 == .granted
      then { e with passed := min 15 (e.passed + 1) } else e))
  | some (e, .unvisited) => some (e.anchor limit)
  | _ => none

theorem passCount_granted (fates : List (PendingEntry × Fate)) :
    (passCount fates).2 = fates.any fun x => x.2 == .granted := by
  induction fates with
  | nil => rfl
  | cons p rest ih =>
    obtain ⟨e, fate⟩ := p
    rw [List.any_cons, ← ih]
    cases fate <;> simp [passCount]

theorem passCount_cons (limit : Nat) (p : PendingEntry × Fate) (rest : List (PendingEntry × Fate)) :
    (passCount (p :: rest)).1.map (PendingEntry.anchor limit) =
      (countedAt limit (p :: rest) 0).toList ++ (passCount rest).1.map (PendingEntry.anchor limit) := by
  obtain ⟨e, fate⟩ := p
  cases fate with
  | stayed =>
    have := passCount_granted rest
    simp only [passCount, List.map_cons, countedAt, List.getElem?_cons_zero, zero_add, List.drop_one, List.tail_cons, this,
      Option.toList_some, List.singleton_append, List.cons.injEq, and_true]
    split <;> rfl
  | _ => rfl

/-- Pass-over counting place by place. -/
theorem passCount_eq (limit : Nat) (fates : List (PendingEntry × Fate)) :
    (passCount fates).1.map (PendingEntry.anchor limit) = (List.range fates.length).filterMap (countedAt limit fates) := by
  induction fates with
  | nil => rfl
  | cons p rest ih =>
    rw [passCount_cons, ih, List.length_cons, List.range_succ_eq_map, List.filterMap_cons, List.filterMap_map]
    have hshift : countedAt limit (p :: rest) ∘ Nat.succ = countedAt limit rest := rfl
    rw [hshift]
    cases countedAt limit (p :: rest) 0 <;> rfl

theorem anchor_eq (limit : Nat) (e : PendingEntry) :
    e.anchor limit = if limit ≤ e.passed then { e with anchored := true } else e := by
  unfold PendingEntry.anchor
  split
  · next h => simp [h]
  · next h => simp [h]

/-! ### A visit -/

theorem visit_over (t : Tables) (e : PendingEntry) (st : Station) (h : t.station? e.station = some st)
    (hq : st.quota < st.held + e.count) : t.visit e =
      ((t.modifyStation e.station .dropQueued).post e.station (.refused e.ticket .quota), .removed) := by
  rcases visit_cases t e with ⟨-, hv⟩ | ⟨ho, -⟩ | ⟨_, _, ho, -⟩
  · exact hv
  · simp [Tables.overQuota, h] at ho; omega
  · simp [Tables.overQuota, h] at ho; omega

theorem visit_stays (t : Tables) (e : PendingEntry) (st : Station) (h : t.station? e.station = some st)
    (hq : st.held + e.count ≤ st.quota) (hf : t.fits e.count e.contiguous = none) : t.visit e = (t, .stayed) := by
  rcases visit_cases t e with ⟨ho, -⟩ | ⟨-, -, hv⟩ | ⟨_, _, -, hf', -⟩
  · simp [Tables.overQuota, h] at ho; omega
  · exact hv
  · rw [hf] at hf'; cases hf'

theorem visit_grants (t : Tables) (e : PendingEntry) (st : Station) (slots : List Nat) (i : Nat)
    (h : t.station? e.station = some st) (hq : st.held + e.count ≤ st.quota)
    (hf : t.fits e.count e.contiguous = some (slots, i)) : t.visit e =
      (((t.createLease i (.fresh e.station slots (t.policy.clip (e.term.getD 0)) e.idleLimit false)).modifyStation e.station
        .dropQueued).post e.station (.granted e.ticket (t.handle i) slots (t.policy.clip (e.term.getD 0))), .granted) := by
  rcases visit_cases t e with ⟨ho, -⟩ | ⟨-, hf', -⟩ | ⟨_, _, -, hf', hv⟩
  · simp [Tables.overQuota, h] at ho; omega
  · rw [hf] at hf'; cases hf'
  · rw [hf] at hf'; cases hf'; exact hv

theorem fits_eq_none (t : Tables) (count : Nat) (contiguous : Bool) (h : t.choice count contiguous = none ∨ t.noneFree) :
    t.fits count contiguous = none := by
  rw [← Option.not_isSome_iff_eq_none, Option.isSome_iff_exists]
  rintro ⟨⟨slots, i⟩, hf⟩
  obtain ⟨hc, hi⟩ := (fits_eq_some _ _ _ _ _).mp hf
  rcases h with h | h
  · rw [h] at hc; cases hc
  · rw [(freeIndex?_eq_none_iff t).mpr h] at hi; cases hi

/-- Settles O52: the walk, the counting place by place, the refusals, and the visit by its three outcomes. -/
theorem passVisitsEntry : Obligations.PassVisitsEntry := by
  refine ⟨fun t => ⟨rfl, fun e es u fate hv => ⟨fun hs ha => ?_, fun hgo => ?_⟩⟩, fun t => ⟨_, _, rfl, ?_, ?_⟩,
    fun t pick reason hnd => ⟨?_, refuseEntries_eq t pick reason hnd⟩, fun e st t h => ⟨fun hq => ?_, fun hq => ⟨fun hf => ?_, ?_⟩⟩⟩
  · rw [passWalk_cons_stop t e es (by rw [hv]; exact hs) ha, hv]
  · rw [passWalk_cons_go t e es (by rw [hv]; exact hgo), hv]
  · exact passWalk_entries t.queue t
  · unfold Tables.queuePass
    dsimp only
    rw [passCount_eq]
    refine congrArg (fun q => { (passWalk t.queue t).1 with queue := q }) (List.filterMap_congr fun k _ => ?_)
    simp only [countedAt, anchor_eq]
    rcases (passWalk t.queue t).2[k]? with _ | ⟨e, fate⟩
    · rfl
    · cases fate <;> rfl
  · rw [refuseEntries_eq t pick reason hnd]
    refine List.foldlRecOn (motive := fun u : Tables => u.queue = t.queue.filter fun e => !pick e) _ _ rfl fun u hu e _ => ?_
    rw [tellRefused_queue, hu]
  · rw [visit_over t e st h hq, modifyStation_some _ _ _ _ h]
    rfl
  · exact visit_stays t e st h hq (fits_eq_none t _ _ hf)
  · intro slots i hc hi
    exact ⟨_, rfl, visit_grants t e st slots i h hq ((fits_eq_some _ _ _ _ _).mpr ⟨hc, (freeIndex?_eq_some_iff t i).mpr hi⟩)⟩

end Sys2Proof.Machine
end

section
/-! SUPPORT. CLEAR_LEASES and SOFT_RESET (2.4, 3.4, 10.6): the leases retired one by one, the tables emptied, the exchange
abandoned (O19, O20). -/

namespace Sys2Proof.Machine

set_option Elab.async false

/-! ### CLEAR_LEASES on the lease table -/

theorem retire_entry (t : Tables) (i j : Nat) (l : Lease) (r : RetireReason) (tell : Bool) (h : t.lease? i = some l) :
    (t.retire i l r tell).entry j = if j = i then ⟨(t.entry i).epoch + 1, none⟩ else t.entry j := by
  obtain ⟨h1, hlen⟩ := lease?_range t i l h
  rw [entry_of_leases_eq (retire_leases t i l r tell)]
  split
  · next hj => rw [hj, freeEntry_entry_self t i h1 hlen]
  · next hj => exact freeEntry_entry_ne t i j hj

theorem freed_of_free (e : LeaseEntry) (h : e.lease = none) : e.freed = e := by
  simp [LeaseEntry.freed, h]

theorem freed_of_used (e : LeaseEntry) (l : Lease) (h : e.lease = some l) : e.freed = ⟨e.epoch + 1, none⟩ := by
  simp [LeaseEntry.freed, h]

theorem clearLease_free (t : Tables) (i : Nat) (h : t.lease? i = none) : t.clearLease i = t := by
  simp [Tables.clearLease, h]

theorem clearLease_used (t : Tables) (i : Nat) (l : Lease) (h : t.lease? i = some l) :
    t.clearLease i = t.retire i l .cleared true := by
  simp [Tables.clearLease, h]

theorem clearLease_entry (t : Tables) (i j : Nat) :
    (t.clearLease i).entry j = if j = i then (t.entry i).freed else t.entry j := by
  cases h : t.lease? i with
  | none =>
    rw [clearLease_free t i h, freed_of_free _ h]
    split
    · next hj => rw [hj]
    · rfl
  | some l => rw [clearLease_used t i l h, retire_entry t i j l _ _ h, freed_of_used _ l h]

theorem clearLeases_entry (is : List Nat) (hnd : is.Nodup) (t : Tables) (j : Nat) :
    (is.foldl Tables.clearLease t).entry j = if j ∈ is then (t.entry j).freed else t.entry j := by
  induction is generalizing t with
  | nil => simp
  | cons i is ih =>
    obtain ⟨hi, hnd⟩ := List.nodup_cons.mp hnd
    rw [List.foldl_cons, ih hnd, clearLease_entry]
    by_cases hj : j = i
    · subst hj; simp [hi]
    · simp [hj]

theorem clearLease_lease?_ne (t : Tables) (i j : Nat) (h : j ≠ i) : (t.clearLease i).lease? j = t.lease? j :=
  congrArg LeaseEntry.lease ((clearLease_entry t i j).trans (if_neg h))

/-- The retirement of the lease an entry held when the command was taken. -/
def Tables.clearHeld (t u : Tables) (i : Nat) : Tables :=
  match t.lease? i with
  | none => u
  | some l => u.retire i l .cleared true

/-- The leases retired are those of the tables the command was taken with: one retirement touches no other entry. -/
theorem clearLeases_held (is : List Nat) (hnd : is.Nodup) (t u : Tables) (h : ∀ i ∈ is, u.lease? i = t.lease? i) :
    is.foldl Tables.clearLease u = is.foldl t.clearHeld u := by
  induction is generalizing u with
  | nil => rfl
  | cons i is ih =>
    obtain ⟨hi, hnd⟩ := List.nodup_cons.mp hnd
    have hu : u.lease? i = t.lease? i := h i (List.mem_cons_self ..)
    have hfirst : u.clearLease i = t.clearHeld u i := by
      cases hl : t.lease? i with
      | none => rw [clearLease_free u i (hu.trans hl)]; simp [Tables.clearHeld, hl]
      | some l => rw [clearLease_used u i l (hu.trans hl)]; simp [Tables.clearHeld, hl]
    rw [List.foldl_cons, List.foldl_cons, ← hfirst]
    refine ih hnd _ fun j hj => ?_
    rw [clearLease_lease?_ne u i j (fun heq => hi (heq ▸ hj)), h j (List.mem_cons_of_mem _ hj)]

/-! ### CLEAR_LEASES on the other tables -/

theorem clearLease_keeps {α : Type} (g : Tables → α)
    (hg : ∀ (t : Tables) i l, t.lease? i = some l → g (t.retire i l .cleared true) = g t) (t : Tables) (i : Nat) :
    g (t.clearLease i) = g t := by
  cases h : t.lease? i with
  | none => rw [clearLease_free t i h]
  | some l => rw [clearLease_used t i l h, hg t i l h]

theorem clearLeases_keeps {α : Type} (g : Tables → α)
    (hg : ∀ (t : Tables) i l, t.lease? i = some l → g (t.retire i l .cleared true) = g t) (is : List Nat) (t : Tables) :
    g (is.foldl Tables.clearLease t) = g t := by
  induction is generalizing t with
  | nil => rfl
  | cons i is ih => rw [List.foldl_cons, ih, clearLease_keeps g hg]

/-- The quota of a station, when it is present. -/
def Tables.quota? (t : Tables) (a : Nat) : Option Nat := (t.station? a).map Station.quota

theorem post_quota? (t : Tables) (a b : Nat) (c : NoticeContent) : (t.post a c).quota? b = t.quota? b := by
  have h := congrArg (Option.map Station.quota) (post_station? t a b c)
  simpa [Tables.quota?, Option.map_map, Function.comp_def] using h

theorem modifyStation_quota? (t : Tables) (a b : Nat) (f : Station → Station) (hf : ∀ st, (f st).quota = st.quota) :
    (t.modifyStation a f).quota? b = t.quota? b := by
  unfold Tables.quota?
  rw [modifyStation_station?]
  split
  · next h => rw [h, Option.map_map]; exact congrArg (Option.map · _) (funext hf)
  · rfl

theorem retire_quota? (t : Tables) (i b : Nat) (l : Lease) (r : RetireReason) (tell : Bool) :
    (t.retire i l r tell).quota? b = t.quota? b := by
  rw [retire_keeps (Tables.quota? · b) (fun t a c => post_quota? t a b c)]
  unfold Tables.vacate
  rw [modifyStation_quota? _ _ _ (.dropLease l.slots.length) fun _ => rfl]
  exact congrArg (fun o => Option.map Station.quota o) (station?_of_stations_eq (by simp) b)

theorem retire_slot (t : Tables) (i n : Nat) (l : Lease) (r : RetireReason) (tell : Bool) : (t.retire i l r tell).slot n =
    ((t.freeEntry i).setSlotStates l.slots (.cooling t.policy.coolPeriods 0)).slot n :=
  (slot_eq_of_slots_eq (retire_keeps Tables.slots post_slots t i l r tell) n).trans (vacate_slot t i n l)

/-- The lease in an entry holds a slot. -/
def Tables.leaseHolds (t : Tables) (i n : Nat) : Bool := (t.lease? i).any fun l => l.slots.contains n

/-- A slot record whose state is replaced when a condition holds. -/
def Slot.stateIf (v : Slot) (b : Bool) (st : SlotState) : Slot :=
  match v with
  | .outside => .outside
  | .inArea old last => .inArea (if b then st else old) last

theorem clearLease_slot (t : Tables) (i n : Nat) :
    (t.clearLease i).slot n = (t.slot n).stateIf (t.leaseHolds i n) (.cooling t.policy.coolPeriods 0) := by
  cases h : t.lease? i with
  | none =>
    rw [clearLease_free t i h]
    cases hs : t.slot n <;> simp [Slot.stateIf, Tables.leaseHolds, h]
  | some l =>
    rw [clearLease_used t i l h, retire_slot, setSlotStates_slot, slot_eq_of_slots_eq (freeEntry_slots t i)]
    cases hs : t.slot n <;> simp [Slot.stateIf, Tables.leaseHolds, h]

@[simp] theorem clearLease_policy (t : Tables) (i : Nat) : (t.clearLease i).policy = t.policy :=
  clearLease_keeps Tables.policy (fun t i l _ => retire_policy t i l _ _) t i

theorem clearLeases_slot (is : List Nat) (hnd : is.Nodup) (t : Tables) (n : Nat) : (is.foldl Tables.clearLease t).slot n =
    (t.slot n).stateIf (is.any fun i => t.leaseHolds i n) (.cooling t.policy.coolPeriods 0) := by
  induction is generalizing t with
  | nil => cases h : t.slot n <;> simp [Slot.stateIf, h]
  | cons i is ih =>
    obtain ⟨hi, hnd⟩ := List.nodup_cons.mp hnd
    have hrest : (is.any fun j => (t.clearLease i).leaseHolds j n) = is.any fun j => t.leaseHolds j n := by
      rw [Bool.eq_iff_iff, List.any_eq_true, List.any_eq_true]
      refine exists_congr fun j => and_congr_right fun hj => ?_
      rw [Tables.leaseHolds, clearLease_lease?_ne t i j (fun heq => hi (heq ▸ hj)), Tables.leaseHolds]
    rw [List.foldl_cons, ih hnd, hrest, clearLease_slot, clearLease_policy, List.any_cons]
    cases t.slot n with
    | outside => rfl
    | inArea st last => cases t.leaseHolds i n <;> simp [Slot.stateIf]

/-- In matching tables the slots the leases hold are the LEASED ones. -/
theorem leaseHolds_iff_leased (t : Tables) (h : t.mapMatchesLeases) (h48 : t.leases.length = 48) (n : Nat)
    (hn : n ∈ slotNumbers) :
    (leaseIndices.any fun i => t.leaseHolds i n) = true ↔ ∃ i, t.slotState? n = some (.leased i) := by
  simp only [List.any_eq_true, Tables.leaseHolds, Option.any_eq_true, List.contains_iff_mem]
  constructor
  · rintro ⟨i, -, l, hl, hmem⟩
    exact ⟨i, (h.1 n hn i).mpr ⟨l, hl, hmem⟩⟩
  · rintro ⟨i, hs⟩
    obtain ⟨l, hl, hmem⟩ := (h.1 n hn i).mp hs
    have := lease?_range t i l hl
    exact ⟨i, (mem_leaseIndices i).mpr (by omega), l, hl, hmem⟩

theorem clearLeases_slot_matching (t : Tables) (h : t.mapMatchesLeases) (h48 : t.leases.length = 48) (n : Nat)
    (hn : n ∈ slotNumbers) : (leaseIndices.foldl Tables.clearLease t).slot n =
      match t.slot n with
      | .inArea (.leased _) last => .inArea (.cooling t.policy.coolPeriods 0) last
      | v => v := by
  rw [clearLeases_slot leaseIndices leaseIndices_nodup t n]
  have hl := leaseHolds_iff_leased t h h48 n hn
  rw [slotState?_eq] at hl
  cases hs : t.slot n with
  | outside => rfl
  | inArea st last =>
    simp only [hs, Slot.state?, Option.some.injEq] at hl
    cases st with
    | leased i => rw [hl.mpr ⟨i, rfl⟩]; rfl
    | _ =>
      rw [Bool.not_eq_true _ |>.mp (hl.not.mpr nofun)]
      rfl

/-! ### The entries told -/

theorem tellRefused_keeps {α : Type} (g : Tables → α) (hp : ∀ (t : Tables) a c, g (t.post a c) = g t)
    (hm : ∀ (t : Tables) a, g (t.modifyStation a .dropQueued) = g t) (reason : RefuseReason) (es : List PendingEntry)
    (t : Tables) : g (es.foldl (Tables.tellRefused reason) t) = g t := by
  induction es generalizing t with
  | nil => rfl
  | cons e es ih => rw [List.foldl_cons, ih, Tables.tellRefused, hp, hm]

/-- Every entry refused (R66). -/
theorem refuseAll_eq (t : Tables) (reason : RefuseReason) (h : (t.queue.map PendingEntry.ticket).Nodup) :
    t.refuseEntries (fun _ => true) reason = t.queue.foldl (Tables.tellRefused reason) { t with queue := [] } := by
  rw [refuseEntries_eq t _ reason h, List.filter_true]
  simp

/-- The tables a CLEAR_LEASES leaves (R40, R66). -/
def Tables.clearedAll (t : Tables) : Tables :=
  t.queue.foldl (Tables.tellRefused .cleared) { leaseIndices.foldl Tables.clearLease t with queue := [] }

theorem clearLeases_eq (t : Tables) (h : t.queueOrdered) : t.clearLeases = ⟨t.clearedAll, .ok, []⟩ := by
  have hqueue : (leaseIndices.foldl Tables.clearLease t).queue = t.queue :=
    clearLeases_keeps Tables.queue (fun t i l _ => retire_queue t i l _ _) leaseIndices t
  rw [Tables.clearLeases, refuseAll_eq _ _ (by rw [hqueue]; exact h.2.1), hqueue]
  rfl

/-- What the postings, the counts, the retirements and the queue do not touch is as it was. -/
theorem clearedAll_keeps {α : Type} (g : Tables → α) (hp : ∀ (t : Tables) a c, g (t.post a c) = g t)
    (hm : ∀ (t : Tables) a, g (t.modifyStation a .dropQueued) = g t)
    (hr : ∀ (t : Tables) i l, g (t.retire i l .cleared true) = g t) (hq : ∀ t : Tables, g { t with queue := [] } = g t)
    (t : Tables) : g t.clearedAll = g t := by
  rw [Tables.clearedAll, tellRefused_keeps g hp hm, hq, clearLeases_keeps g fun t i l _ => hr t i l]

theorem withQueue_entry (t : Tables) (q : List PendingEntry) (i : Nat) : ({ t with queue := q } : Tables).entry i = t.entry i := rfl

theorem clearedAll_entry (t : Tables) (i : Nat) (hi : i ∈ leaseIndices) : t.clearedAll.entry i = (t.entry i).freed := by
  rw [Tables.clearedAll, entry_of_leases_eq (tellRefused_keeps Tables.leases post_leases
    (fun t a => modifyStation_leases t a _) _ _ _), withQueue_entry, clearLeases_entry leaseIndices leaseIndices_nodup t i,
    if_pos hi]

theorem withQueue_slot (t : Tables) (q : List PendingEntry) (n : Nat) : ({ t with queue := q } : Tables).slot n = t.slot n := rfl

theorem clearedAll_slot (t : Tables) (n : Nat) :
    t.clearedAll.slot n = (leaseIndices.foldl Tables.clearLease t).slot n := by
  rw [Tables.clearedAll, slot_eq_of_slots_eq (tellRefused_keeps Tables.slots post_slots (fun t a => modifyStation_slots t a _)
    _ _ _), withQueue_slot]

/-- Settles O19: the leases retired, then the entries told; each table is read off the two folds. -/
theorem clearLeasesEmptiesLeasesAndQueue : Obligations.ClearLeasesEmptiesLeasesAndQueue := by
  intro s h hshape hmap hq
  refine ⟨s.te.clearedAll, exec_goodRow (.clearLeases []) _ _ s _ rfl h (parse_clearLeases _) nofun (clearLeases_eq s.te hq),
    fun i hi => ?_, fun n hn => ?_, ?_, ?_, ?_, ?_, ?_, fun a => ?_, leaseIndices.foldl s.te.clearHeld s.te, rfl, ?_⟩
  · rw [clearedAll_entry s.te i hi]
    cases hl : s.te.lease? i with
    | none => rw [freed_of_free _ hl]; exact congrArg (LeaseEntry.mk _) hl
    | some l => rw [freed_of_used _ l hl]; rfl
  · refine (clearedAll_slot s.te n).trans ((clearLeases_slot_matching s.te hmap hshape.1.2.1 n hn).trans ?_)
    cases s.te.slot n <;> rfl
  · exact tellRefused_keeps Tables.queue post_queue (fun t a => modifyStation_queue t a _) _ _ _
  · exact clearedAll_keeps Tables.ticket post_ticket (fun t a => modifyStation_ticket t a _)
      (fun t i l => retire_ticket t i l _ _) (fun _ => rfl) s.te
  · exact clearedAll_keeps Tables.policy post_policy (fun t a => modifyStation_policy t a _)
      (fun t i l => retire_policy t i l _ _) (fun _ => rfl) s.te
  · exact clearedAll_keeps Tables.mapEpoch post_mapEpoch (fun t a => modifyStation_mapEpoch t a _)
      (fun t i l => retire_mapEpoch t i l _ _) (fun _ => rfl) s.te
  · exact clearedAll_keeps Tables.reference post_reference (fun t a => modifyStation_reference t a _)
      (fun t i l => retire_reference t i l _ _) (fun _ => rfl) s.te
  · exact clearedAll_keeps (Tables.quota? · a) (fun t b c => post_quota? t b a c)
      (fun t b => modifyStation_quota? t b a _ fun _ => rfl) (fun t i l => retire_quota? t i a l _ _) (fun _ => rfl) s.te
  · rw [Tables.clearedAll, clearLeases_held leaseIndices leaseIndices_nodup s.te s.te fun _ _ => rfl]
    rfl

/-! ### SOFT_RESET -/

theorem softReset_entry (t : Tables) (i : Nat) : t.softReset.entry i = (t.entry i).freed := by
  unfold Tables.entry Tables.softReset nth?
  dsimp only
  split
  · rfl
  · rw [List.getElem?_map]
    cases t.leases[i - 1]? <;> rfl

/-- What a SOFT_RESET leaves of the part (R186). -/
def State.softened (s : State) : State :=
  State.afterSoftReset { s with te := s.te.softReset, port := { s.port with mailbox := .done ⟨0x11, .ok, []⟩ } }

theorem exec_softReset (s : State) (h : s.port.mailbox = .busy [0x11]) : exec (.softReset []) s = .next s.softened := by
  rw [exec_commandRow (.softReset []) [0x11] s rfl, manage_busy s _ h, State.performCommand,
    takeCommand_good _ _ _ .softReset (parse_softReset _), if_pos (parse_softReset _)]
  rfl

/-! ### A character finished -/

theorem sentBits_eq (frame : List Byte) (left k j : Nat) (h : left + (10 * k + j) = 10 * frame.length) :
    sentBits frame left = 10 * k + j := by
  simp only [sentBits, Config.charTime]
  omega

theorem charUnderWay_eq (frame : List Byte) (left k j : Nat) (hj : j < 10) (h : left + (10 * k + j) = 10 * frame.length) :
    charUnderWay frame left = frame[k]? := by
  simp only [charUnderWay, sentBits_eq frame left k j h, Config.charTime]
  rw [show (10 * k + j) / 10 = k by omega]

theorem finishSending_eq (frame : List Byte) (left k j : Nat) (b : Byte) (hb : frame[k]? = some b) (hj : j < 10)
    (h : left + (10 * k + j) = 10 * frame.length) : finishSending frame left = .finishChar b (10 - j) := by
  unfold finishSending
  rw [charUnderWay_eq frame left k j hj h, hb, sentBits_eq frame left k j h]
  simp only [Config.charTime]
  rw [show (10 * k + j) % 10 = j by omega]

/-- The level of a character by the place of its bit. -/
theorem lineLevel_eq (frame : List Byte) (left k j : Nat) (b : Byte) (hb : frame[k]? = some b) (hj : j < 10)
    (h : left + (10 * k + j) = 10 * frame.length) : lineLevel frame left = charBit b j := by
  unfold lineLevel
  rw [charUnderWay_eq frame left k j hj h, hb, sentBits_eq frame left k j h]
  simp only [Config.charTime]
  rw [show (10 * k + j) % 10 = j by omega]

/-- The character of a frame that is being sent and that character alone show the same bit. -/
theorem finishChar_level (frame : List Byte) (left k j : Nat) (b : Byte) (hb : frame[k]? = some b) (hj : j < 10)
    (h : left + (10 * k + j) = 10 * frame.length) : lineLevel [b] (10 - j) = lineLevel frame left := by
  rw [lineLevel_eq frame left k j b hb hj h, lineLevel_eq [b] (10 - j) 0 j b rfl hj (by simp only [List.length_singleton]; omega)]

theorem abandoned_of_silent (s : State) (h : s.rlDe = false) (hg : ∀ elapsed, s.line.exchange ≠ .gap elapsed) :
    s.line.exchange.abandoned = .gap 0 := by
  unfold State.rlDe at h
  cases hx : s.line.exchange with
  | gap elapsed => exact absurd hx (hg elapsed)
  | sendPoll _ _ _ _ | sendResponse _ _ | finishChar _ _ => rw [hx] at h; cases h
  | _ => rfl

/-- Settles O20: the tables emptied, the exchange by what was being sent. -/
theorem softResetEmptiesTables : Obligations.SoftResetEmptiesTables := by
  refine ⟨fun s h => ⟨_, exec_softReset s h, fun i => ⟨(softReset_emptied s.te).leases i, ?_⟩, fun n hn => ?_, rfl, rfl,
    (softReset_emptied s.te).stations, rfl, rfl, rfl, rfl, ?_, rfl, rfl, rfl, rfl, rfl, fun elapsed hx => ?_,
    fun hde hg => ?_, fun frame left k b j hx hb hj hleft => ?_, fun b left hx => ?_, rfl, rfl, rfl, rfl, rfl⟩,
    fun b more s h => exec_badRow (.softReset (b :: more)) _ _ s rfl h rfl⟩
  · refine (congrArg LeaseEntry.epoch (softReset_entry s.te i)).trans ?_
    cases hl : s.te.lease? i with
    | none => rw [freed_of_free _ hl]; rfl
    | some l => rw [freed_of_used _ l hl]; rfl
  · rw [mem_slotNumbers] at hn
    refine (freshSlots_slot s.te.softReset s.te.policy.streamArea n rfl).trans (if_congr ?_ rfl rfl)
    omega
  · simp [State.alertN, State.alertAsserted, State.softened, State.afterSoftReset, State.abandonExchange, Tables.softReset]
  · have hx' : s.softened.line.exchange = .gap elapsed := congrArg Exchange.abandoned hx
    exact ⟨hx', by rw [State.rlDe, hx']; rfl⟩
  · have hx' : s.softened.line.exchange = .gap 0 := abandoned_of_silent s hde hg
    exact ⟨hx', by rw [State.rlDe, hx']; rfl⟩
  · have hsend : s.line.exchange.sending? = some (frame, left) ∧ s.line.exchange.abandoned = finishSending frame left := by
      rcases hx with ⟨a, w, hx⟩ | hx <;> rw [hx] <;> exact ⟨rfl, rfl⟩
    have hx' : s.softened.line.exchange = .finishChar b (10 - j) :=
      hsend.2.trans (finishSending_eq frame left k j b hb hj hleft)
    refine ⟨hx', by rw [State.rlDe, hx']; rfl, ?_⟩
    rw [State.rlTx, State.rlTx, hx', hsend.1]
    exact finishChar_level frame left k j b hb hj hleft
  · exact congrArg Exchange.abandoned hx

end Sys2Proof.Machine
end

section
/-! SUPPORT. The removal of a station (4.4, 4.5): what a queue pass keeps, what becomes of each lease entry, the six steps and
what they leave of the station (O35). -/

namespace Sys2Proof.Machine

set_option Elab.async false

/-! ### What a queue pass keeps -/

/-- What the visits of a queue pass do to the tables keeps a property: a count lowered, a notice posted, a lease granted in a
FREE entry to a present station. -/
structure Tables.PassKeeps (P : Tables → Prop) : Prop where
  post : ∀ (t : Tables) a c, P t → P (t.post a c)
  drop : ∀ (t : Tables) a, P t → P (t.modifyStation a .dropQueued)
  create : ∀ (t : Tables) i owner slots term idle, P t → t.freeIndex? = some i → (t.station? owner).isSome →
    P (t.createLease i (.fresh owner slots term idle false))
  queue : ∀ (t : Tables) q, P t → P { t with queue := q }

theorem visit_keeps {P : Tables → Prop} (hP : Tables.PassKeeps P) (t : Tables) (e : PendingEntry) (h : P t) :
    P (t.visit e).1 := by
  rcases visit_cases t e with ⟨_, hv⟩ | ⟨_, _, hv⟩ | ⟨slots, i, hq, hf, hv⟩
  · rw [hv]; exact hP.post _ _ _ (hP.drop _ _ h)
  · rw [hv]; exact h
  · rw [hv]
    exact hP.post _ _ _ (hP.drop _ _ (hP.create _ _ _ _ _ _ h ((fits_eq_some _ _ _ _ _).mp hf).2
      (present_of_overQuota t e hq)))

theorem passWalk_keeps {P : Tables → Prop} (hP : Tables.PassKeeps P) (es : List PendingEntry) (t : Tables) (h : P t) :
    P (passWalk es t).1 := by
  induction es generalizing t with
  | nil => exact h
  | cons e es ih =>
    by_cases hs : (t.visit e).2 = .stayed ∧ e.anchored = true
    · rw [passWalk_cons_stop t e es hs.1 hs.2]
      exact visit_keeps hP t e h
    · rw [passWalk_cons_go t e es (by grind)]
      exact ih _ (visit_keeps hP t e h)

theorem queuePass_keeps {P : Tables → Prop} (hP : Tables.PassKeeps P) (t : Tables) (h : P t) : P t.queuePass :=
  hP.queue _ _ (passWalk_keeps hP t.queue t h)

theorem passIf_keeps {P : Tables → Prop} (hP : Tables.PassKeeps P) (t : Tables) (b : Bool) (h : P t) : P (t.passIf b) := by
  cases b with
  | false => exact h
  | true => exact queuePass_keeps hP t h

theorem passLeft_sublist (fates : List (PendingEntry × Fate)) : (passLeft fates).Sublist (fates.map Prod.fst) :=
  List.filter_sublist.map _

/-- A pass queues no request that was not queued. -/
theorem queuePass_queue_mem (t : Tables) (e : PendingEntry) (h : e ∈ t.queuePass.queue) :
    ∃ e0 ∈ t.queue, e0.sameRequest e := by
  have hsame := passCount_sameRequest t.policy.anchorPasses (passWalk t.queue t).2
  obtain ⟨k, hk, hke⟩ := List.mem_iff_getElem.mp h
  have hk0 : k < (passLeft (passWalk t.queue t).2).length := by rw [hsame.length_eq]; exact hk
  refine ⟨(passLeft (passWalk t.queue t).2)[k], ?_, ?_⟩
  · have := (passLeft_sublist (passWalk t.queue t).2).subset (List.getElem_mem hk0)
    rwa [passWalk_entries] at this
  · have := hsame.get hk0 hk
    exact hke ▸ this

theorem passIf_queue_mem (t : Tables) (b : Bool) (e : PendingEntry) (h : e ∈ (t.passIf b).queue) :
    ∃ e0 ∈ t.queue, e0.sameRequest e := by
  cases b with
  | false => exact ⟨e, h, rfl, rfl, rfl, rfl⟩
  | true => exact queuePass_queue_mem t e h

/-! ### Grants and entries -/

theorem setLease_epoch (t : Tables) (i j : Nat) (l : Lease) : ((t.setLease i l).entry j).epoch = (t.entry j).epoch := by
  by_cases hj : j = i
  · subst hj
    by_cases hr : j = 0 ∨ t.leases.length < j
    · unfold Tables.setLease Tables.entry
      rw [nth?_setNth_past _ j j _ hr]
    · rw [setLease_entry_self t j l (by omega) (by omega)]
  · rw [setLease_entry_ne t i j l hj]

theorem createLease_entry_ne (t : Tables) (i j : Nat) (l : Lease) (h : j ≠ i) :
    (t.createLease i l).entry j = t.entry j :=
  (entry_of_leases_eq (createLease_leases t i l) j).trans (setLease_entry_ne t i j l h)

theorem createLease_epoch (t : Tables) (i j : Nat) (l : Lease) :
    ((t.createLease i l).entry j).epoch = (t.entry j).epoch :=
  (congrArg LeaseEntry.epoch (entry_of_leases_eq (createLease_leases t i l) j)).trans (setLease_epoch t i j l)

/-- A queue pass grants in FREE entries: one in use stays as it is. -/
theorem passKeeps_usedEntry (i : Nat) (e : LeaseEntry) (he : e.lease.isSome) :
    Tables.PassKeeps fun t => t.entry i = e where
  post t a c h := (entry_of_leases_eq (post_leases t a c) i).trans h
  drop t a h := (entry_of_leases_eq (modifyStation_leases t a _) i).trans h
  create t j _ _ _ _ h hj _ := by
    refine (createLease_entry_ne t j i _ fun hij => ?_).trans h
    have hnone : (t.entry j).lease = none := (freeIndex?_spec t j hj).2
    rw [← hij, h] at hnone
    simp [hnone] at he
  queue _ _ h := h

theorem passKeeps_epoch (i : Nat) (x : BitVec 4) : Tables.PassKeeps fun t => (t.entry i).epoch = x where
  post t a c h := (congrArg LeaseEntry.epoch (entry_of_leases_eq (post_leases t a c) i)).trans h
  drop t a h := (congrArg LeaseEntry.epoch (entry_of_leases_eq (modifyStation_leases t a _) i)).trans h
  create t j _ _ _ _ h _ _ := (createLease_epoch t j i _).trans h
  queue _ _ h := h

/-- No entry, lease or listener list names the address. -/
def Tables.leasesAvoid (t : Tables) (a : Nat) : Prop :=
  t.station? a = none ∧ ∀ i l, t.lease? i = some l → l.owner ≠ a ∧ a ∉ l.listeners

theorem modifyStation_absent (t : Tables) (a b : Nat) (f : Station → Station) (h : t.station? a = none) :
    (t.modifyStation b f).station? a = none := by
  rw [modifyStation_station?]
  split
  · next hab => rw [← hab, h]; rfl
  · exact h

theorem post_absent_station? (t : Tables) (a b : Nat) (c : NoticeContent) (h : t.station? a = none) :
    (t.post b c).station? a = none := by
  have hm := post_station? t b a c
  rw [h] at hm
  exact Option.map_eq_none_iff.mp hm

theorem passKeeps_absent (a : Nat) : Tables.PassKeeps fun t => t.station? a = none where
  post t b c h := post_absent_station? t a b c h
  drop t b h := modifyStation_absent t a b _ h
  create t i owner slots term idle h _ ho := by
    rw [createLease_station?]
    split
    · next hao =>
      rw [show owner = a from hao.symm, h] at ho
      cases ho
    · exact h
  queue _ _ h := h

theorem passKeeps_leasesAvoid (a : Nat) : Tables.PassKeeps fun t => t.leasesAvoid a where
  post t b c h := ⟨(passKeeps_absent a).post t b c h.1,
    fun i l hl => h.2 i l ((lease?_of_leases_eq (post_leases t b c) i) ▸ hl)⟩
  drop t b h := ⟨(passKeeps_absent a).drop t b h.1,
    fun i l hl => h.2 i l ((lease?_of_leases_eq (modifyStation_leases t b _) i) ▸ hl)⟩
  create t i owner slots term idle h hi ho := by
    refine ⟨(passKeeps_absent a).create t i owner slots term idle h.1 hi ho, fun j l hl => ?_⟩
    rw [lease?_of_leases_eq (createLease_leases t i _)] at hl
    rcases setLease_lease?_cases t i j _ _ hl with ⟨-, rfl⟩ | hl
    · exact ⟨fun hoa => absurd ho (by rw [show owner = a from hoa, h.1]; nofun), by simp [Lease.fresh]⟩
    · exact h.2 j l hl
  queue _ _ h := h

/-! ### The leases of the station -/

/-- The lease of an entry is ACTIVE and pinned: its owner's removal passes it to the house. -/
def Lease.passes (l : Lease) : Bool := l.pinned && !l.isEnding

theorem passes_iff (l : Lease) : l.passes = true ↔ l.pinned = true ∧ l.phase = .active := by
  rw [Lease.passes, Bool.and_eq_true, Bool.not_eq_true', isEnding_eq_false_iff]

theorem loseLease_passes (t : Tables) (reason : RetireReason) (i : Nat) (l : Lease) (h : t.lease? i = some l)
    (hp : l.passes = true) : t.loseLease reason i = t.setLease i { l with owner := Config.house } := by
  unfold Tables.loseLease
  rw [h]
  exact if_pos hp

theorem loseLease_retires (t : Tables) (reason : RetireReason) (i : Nat) (l : Lease) (h : t.lease? i = some l)
    (hp : l.passes = false) : t.loseLease reason i = t.retire i l reason false := by
  unfold Tables.loseLease
  rw [h]
  exact if_neg (Bool.not_eq_true _ ▸ hp)

/-- What the removal of the owner makes of a lease entry. -/
def LeaseEntry.lost (e : LeaseEntry) : LeaseEntry :=
  match e.lease with
  | none => e
  | some l => if l.passes then ⟨e.epoch, some { l with owner := Config.house }⟩ else ⟨e.epoch + 1, none⟩

theorem lost_passes (e : LeaseEntry) (l : Lease) (h : e.lease = some l) (hp : l.passes = true) :
    e.lost = ⟨e.epoch, some { l with owner := Config.house }⟩ := by
  simp [LeaseEntry.lost, h, hp]

theorem lost_retires (e : LeaseEntry) (l : Lease) (h : e.lease = some l) (hp : l.passes = false) :
    e.lost = ⟨e.epoch + 1, none⟩ := by
  simp [LeaseEntry.lost, h, hp]

theorem loseLease_entry (t : Tables) (reason : RetireReason) (i j : Nat) :
    (t.loseLease reason i).entry j = if j = i then (t.entry i).lost else t.entry j := by
  cases h : t.lease? i with
  | none =>
    rw [loseLease_none t reason i h, show (t.entry i).lost = t.entry i by simp [LeaseEntry.lost, show (t.entry i).lease = none from h]]
    split
    · next hj => rw [hj]
    · rfl
  | some l =>
    obtain ⟨h1, hlen⟩ := lease?_range t i l h
    cases hp : l.passes with
    | true =>
      rw [loseLease_passes t reason i l h hp, lost_passes _ l h hp]
      split
      · next hj => rw [hj, setLease_entry_self t i _ h1 hlen]
      · next hj => exact setLease_entry_ne t i j _ hj
    | false => rw [loseLease_retires t reason i l h hp, lost_retires _ l h hp, retire_entry t i j l _ _ h]

theorem loseLeases_entry (reason : RetireReason) (is : List Nat) (hnd : is.Nodup) (t : Tables) (j : Nat) :
    (is.foldl (fun t i => t.loseLease reason i) t).entry j = if j ∈ is then (t.entry j).lost else t.entry j := by
  induction is generalizing t with
  | nil => simp
  | cons i is ih =>
    obtain ⟨hi, hnd⟩ := List.nodup_cons.mp hnd
    rw [List.foldl_cons, ih hnd, loseLease_entry]
    by_cases hj : j = i
    · subst hj; simp [hi]
    · simp [hj]

/-- One lease of the walk over all leases: it is lost when the station owned it when the removal began. -/
def Tables.loseHeld (t : Tables) (a : Nat) (reason : RetireReason) (v : Tables) (i : Nat) : Tables :=
  match t.lease? i with
  | none => v
  | some l =>
    if l.owner ≠ a then v
    else if l.pinned = true ∧ l.phase = .active then v.setLease i { l with owner := 31 }
    else v.retire i l reason false

theorem loseLease_held (t v : Tables) (a : Nat) (reason : RetireReason) (i : Nat) (h : v.lease? i = t.lease? i) :
    (if (t.lease? i).any fun l => l.owner == a then v.loseLease reason i else v) = t.loseHeld a reason v i := by
  cases hl : t.lease? i with
  | none => simp [Tables.loseHeld, hl]
  | some l =>
    by_cases ho : l.owner = a
    · cases hp : l.passes with
      | true =>
        have := (passes_iff l).mp hp
        rw [loseLease_passes v reason i l (h.trans hl) hp]
        simp [Tables.loseHeld, hl, ho, this, Config.house]
      | false =>
        have := (passes_iff l).not.mp (Bool.eq_false_iff.mp hp)
        rw [loseLease_retires v reason i l (h.trans hl) hp]
        simp [Tables.loseHeld, hl, ho, this]
    · simp [Tables.loseHeld, hl, ho]

theorem loseLeases_held (t : Tables) (a : Nat) (reason : RetireReason) (is : List Nat) (hnd : is.Nodup) (v : Tables)
    (h : ∀ i ∈ is, v.lease? i = t.lease? i) :
    (is.filter fun i => (t.lease? i).any fun l => l.owner == a).foldl (fun t i => t.loseLease reason i) v =
      is.foldl (t.loseHeld a reason) v := by
  induction is generalizing v with
  | nil => rfl
  | cons i is ih =>
    obtain ⟨hi, hnd⟩ := List.nodup_cons.mp hnd
    have hrest : ∀ j ∈ is, (t.loseHeld a reason v i).lease? j = t.lease? j := fun j hj => by
      rw [← loseLease_held t v a reason i (h i (List.mem_cons_self ..))]
      split
      · rw [loseLease_lease?_ne v reason i j (fun heq => hi (heq ▸ hj)), h j (List.mem_cons_of_mem _ hj)]
      · exact h j (List.mem_cons_of_mem _ hj)
    rw [List.foldl_cons, ← ih hnd _ hrest, ← loseLease_held t v a reason i (h i (List.mem_cons_self ..)), List.filter_cons]
    split <;> rfl

/-! ### The steps of a removal -/

theorem setNth_setNth {α : Type} (l : List α) (n : Nat) (v w : α) : setNth (setNth l n v) n w = setNth l n w := by
  unfold setNth
  split
  · rfl
  · rw [List.set_set]

/-- The count of the entries dropped is lost with the station's entry. -/
theorem dropEntriesOf_setStation (t : Tables) (a : Nat) : (t.dropEntriesOf a).setStation a none =
    ({ t with queue := t.queue.filter fun e => e.station != a } : Tables).setStation a none := by
  unfold Tables.dropEntriesOf Tables.modifyStation
  split
  · rfl
  · simp only [Tables.setStation, setNth_setNth]

theorem loseLease_queue (t : Tables) (reason : RetireReason) (i : Nat) : (t.loseLease reason i).queue = t.queue := by
  unfold Tables.loseLease
  split
  · rfl
  · split <;> simp

theorem loseLeases_queue (reason : RetireReason) (is : List Nat) (t : Tables) :
    (is.foldl (fun t i => t.loseLease reason i) t).queue = t.queue := by
  induction is generalizing t with
  | nil => rfl
  | cons i is ih => rw [List.foldl_cons, ih, loseLease_queue]

theorem stripped_entry (t : Tables) (a : Nat) (reason : RetireReason) (i : Nat) :
    ((t.stripped a reason).entry i).epoch =
      (if i ∈ t.ownedBy a then (t.entry i).lost else t.entry i).epoch ∧
    ((t.stripped a reason).entry i).lease =
      (if i ∈ t.ownedBy a then (t.entry i).lost else t.entry i).lease.map (Lease.dropListener a) := by
  rw [← loseLeases_entry reason _ (ownedBy_nodup t a) t i, Tables.stripped, Tables.dropEntriesOf,
    entry_of_leases_eq (modifyStation_leases _ _ _)]
  refine ⟨?_, mapLeases_lease? _ _ i⟩
  unfold Tables.mapLeases Tables.entry nth?
  split
  · rfl
  · dsimp only
    rw [List.getElem?_map]
    cases (List.foldl (fun t i => t.loseLease reason i) t (t.ownedBy a)).leases[i - 1]? <;> rfl

/-! ### A silence expiry -/

theorem next_expiry_head (s : State) (a : Nat) (h : s.nextOperation? = some (.expiry a)) :
    ∃ rest, s.arbiter.expiries = a :: rest := by
  unfold State.nextOperation? at h
  split at h
  · cases h
  · split at h
    · cases h
    · split at h
      · next b rest he => cases h; exact ⟨rest, he⟩
      · obtain ⟨op, -, hop⟩ := Option.map_eq_some_iff.mp h
        cases hop

theorem exec_silenceExpiry_next (a : Nat) (s : State) (te : Tables) (h : s.nextOperation? = some (.expiry a))
    (hte : s.te.silenceExpiry a = te) : exec (.silenceExpiry a) s =
      .next { s with te := te, arbiter := { s.arbiter with expiries := s.arbiter.expiries.tail } } := by
  obtain ⟨rest, he⟩ := next_expiry_head s a h
  subst hte
  rw [exec_row_waiting (.silenceExpiry a) (.expiry a) s (by simp [rowTakes]) (waits_of_next s _ h), take_next s _ h]
  simp [State.perform, State.performExpiry, he]

theorem silenceExpiry_absent (t : Tables) (a : Nat) (h : t.station? a = none) : t.silenceExpiry a = t := by
  simp [Tables.silenceExpiry, Tables.isSilent, h]

theorem silenceExpiry_joined (t : Tables) (a : Nat) (st : Station) (h : t.station? a = some st) (hl : st.live = .joined) :
    t.silenceExpiry a = t := by
  simp [Tables.silenceExpiry, Tables.isSilent, h, hl, Liveness.isSilent]

theorem silenceExpiry_silent (t : Tables) (a ms : Nat) (st : Station) (h : t.station? a = some st) (hl : st.live = .silent ms) :
    t.silenceExpiry a = (t.removeStation a .ownerLost).raise .stationLost := by
  simp [Tables.silenceExpiry, Tables.isSilent, h, hl, Liveness.isSilent]

/-! ### What a removal leaves -/

theorem loseLeases_length (reason : RetireReason) (is : List Nat) (t : Tables) :
    (is.foldl (fun t i => t.loseLease reason i) t).stations.length = t.stations.length := by
  induction is generalizing t with
  | nil => rfl
  | cons i is ih => rw [List.foldl_cons, ih, loseLease_length]

theorem stripped_setStation_absent (t : Tables) (a : Nat) (reason : RetireReason) (ha : (t.station? a).isSome) :
    ((t.stripped a reason).setStation a none).station? a = none := by
  obtain ⟨st, hst⟩ := Option.isSome_iff_exists.mp ha
  obtain ⟨h1, hlen⟩ := station?_isSome_range t a st hst
  refine setStation_station?_self _ a none h1 ?_
  simp only [Tables.stripped, Tables.dropEntriesOf, Tables.mapLeases, modifyStation_length, loseLeases_length]
  exact hlen

theorem removeStation_absent (t : Tables) (a : Nat) (reason : RetireReason) (ha : (t.station? a).isSome) :
    (t.removeStation a reason).station? a = none :=
  passIf_keeps (passKeeps_absent a) _ _ (stripped_setStation_absent t a reason ha)

/-- After a removal nothing names the station, and each lease it owned is the house's or has been retired. -/
theorem removeStation_leaves (t : Tables) (a : Nat) (reason : RetireReason) (hs : t.sized) (hn : t.namesPresent)
    (ha : (t.station? a).isSome) : (t.removeStation a reason).leasesAvoid a ∧
    (∀ e ∈ (t.removeStation a reason).queue, e.station ≠ a) ∧
    ∀ i l, t.lease? i = some l → l.owner = a →
      (l.passes = true → (t.removeStation a reason).entry i = ⟨(t.entry i).epoch, some { l with owner := Config.house }⟩) ∧
      (l.passes = false → ((t.removeStation a reason).entry i).epoch = (t.entry i).epoch + 1) := by
  obtain ⟨hleases, hqueue⟩ := stripped_namesNowhere t a reason ha hs
  have havoid : ((t.stripped a reason).setStation a none).leasesAvoid a :=
    ⟨stripped_setStation_absent t a reason ha, hleases⟩
  rw [removeStation_eq]
  refine ⟨passIf_keeps (passKeeps_leasesAvoid a) _ _ havoid, fun e he => ?_, fun i l hl ho => ⟨fun hp => ?_, fun hp => ?_⟩⟩
  · obtain ⟨e0, hmem, -, hsame, -⟩ := passIf_queue_mem _ _ e he
    exact hsame ▸ hqueue e0 hmem
  all_goals
    have hrange := lease?_range t i l hl
    have hmem : i ∈ t.ownedBy a := (mem_ownedBy t a i).mpr ⟨by have := hs.2.1; omega, l, hl, ho⟩
    obtain ⟨hepoch, hlease⟩ := stripped_entry t a reason i
    rw [if_pos hmem] at hepoch hlease
  · refine passIf_keeps (passKeeps_usedEntry i _ rfl) _ _ ?_
    rw [lost_passes _ l hl hp] at hepoch hlease
    have hkept : Lease.dropListener a { l with owner := Config.house } = { l with owner := Config.house } := by
      have hnot : a ∉ l.listeners := ho ▸ (hn.1 i l hl).2.2.2.1
      simp only [Lease.dropListener]
      congr 1
      exact List.filter_eq_self.mpr fun x hx => bne_iff_ne.mpr fun hxa => hnot (hxa ▸ hx)
    rw [Option.map_some, hkept] at hlease
    exact congrArg₂ LeaseEntry.mk hepoch hlease
  · rw [lost_retires _ l hl hp] at hepoch
    exact passIf_keeps (passKeeps_epoch i _) _ _ hepoch

/-- Settles O35: the expiry by the station's liveness, the removal step by step, and what it leaves. -/
theorem silentStationIsRemovedWhole : Obligations.SilentStationIsRemovedWhole := by
  refine ⟨fun a s h => ⟨fun hs => exec_silenceExpiry_next a s _ h (silenceExpiry_absent _ a hs), fun st hs =>
    ⟨fun hl => exec_silenceExpiry_next a s _ h (silenceExpiry_joined _ a st hs hl), fun ms hl =>
      ⟨_, rfl, exec_silenceExpiry_next a s _ h (silenceExpiry_silent _ a ms st hs hl)⟩⟩⟩,
    fun a reason t => ⟨leaseIndices.foldl (t.loseHeld a reason) t, _, _, rfl, rfl, rfl, ?_⟩,
    fun a reason t u hs hn ha hu => ?_⟩
  · have hlost := loseLeases_held t a reason leaseIndices leaseIndices_nodup t fun _ _ => rfl
    have hanchored : (((t.ownedBy a).foldl (fun t i => t.loseLease reason i) t).mapLeases (.dropListener a)).anchoredOf a =
        t.anchoredOf a :=
      congrArg (fun q => q.any fun e : PendingEntry => e.station == a && e.anchored) (loseLeases_queue reason (t.ownedBy a) t)
    rw [removeStation_eq, hanchored, Tables.stripped, dropEntriesOf_setStation, Tables.ownedBy, hlost]
    rfl
  · subst hu
    obtain ⟨⟨habsent, havoid⟩, hqueue, hentries⟩ := removeStation_leaves t a reason hs hn ha
    refine ⟨habsent, havoid, hqueue, fun i l hl ho => ⟨fun hp hact => ?_, fun hnot => ?_⟩⟩
    · exact (hentries i l hl ho).1 ((passes_iff l).mpr ⟨hp, hact⟩)
    · exact (hentries i l hl ho).2 (Bool.eq_false_iff.mpr ((passes_iff l).not.mpr hnot))

end Sys2Proof.Machine
end

section
/-! SUPPORT. The stages of the period close (1.5, 2.5, 2.1.2): what each leaves alone, the audit slot by slot, idle evaluation,
the close taken whole with its snapshot (O36, O37). -/

namespace Sys2Proof.Machine

set_option Elab.async false

/-! ### What the stages leave alone -/

theorem foldl_keeps {α β : Type} (g : Tables → β) (f : Tables → α → Tables) (xs : List α)
    (h : ∀ (t : Tables), ∀ x ∈ xs, g (f t x) = g t) (t : Tables) : g (xs.foldl f t) = g t :=
  List.foldlRecOn (motive := fun u => g u = g t) xs f rfl fun u hu x hx => (h u x hx).trans hu

section
variable {α : Type} (g : Tables → α)

theorem enterEnding_keeps (hp : ∀ (t : Tables) a c, g (t.post a c) = g t) (i : Nat)
    (hs : ∀ (t : Tables) l, g (t.setLease i l) = g t) (t : Tables) (l : Lease) (r : EndReason) :
    g (t.enterEnding i l r) = g t := by
  rw [Tables.enterEnding, hp, hs]

/-- Idle evaluation writes the lease it evaluates and posts. -/
theorem idleLease_keeps (hp : ∀ (t : Tables) a c, g (t.post a c) = g t) (i : Nat)
    (hs : ∀ (t : Tables) l, g (t.setLease i l) = g t) (t : Tables) : g (t.idleLease i) = g t := by
  unfold Tables.idleLease
  split
  · rfl
  · split
    · rfl
    · split
      · exact hs _ _
      · dsimp only
        split
        · exact enterEnding_keeps g hp i hs _ _ _
        · exact hs _ _

/-- So does the countdown of a term. -/
theorem termLease_keeps (hp : ∀ (t : Tables) a c, g (t.post a c) = g t) (i : Nat)
    (hs : ∀ (t : Tables) l, g (t.setLease i l) = g t) (t : Tables) : g (t.termLease i) = g t := by
  unfold Tables.termLease
  split
  · rfl
  · split
    · rfl
    · split
      · rfl
      · dsimp only
        split
        · exact enterEnding_keeps g hp i hs _ _ _
        · split
          · rw [hp, hs]
          · exact hs _ _

/-- The countdown of a deadline writes the lease or retires it. -/
theorem deadlineLease_keeps (i : Nat) (hs : ∀ (t : Tables) l, g (t.setLease i l) = g t)
    (hr : ∀ (t : Tables) l r, t.lease? i = some l → g (t.retire i l r false) = g t) (t : Tables) :
    g (t.deadlineLease i) = g t := by
  unfold Tables.deadlineLease
  split
  · rfl
  · next l hl =>
    split
    · rfl
    · split
      · exact hr _ _ _ hl
      · exact hs _ _

theorem coolSlot_keeps (hs : ∀ (t : Tables) n st, g (t.setSlotState n st) = g t) (t : Tables) (n : Nat) :
    g (t.coolSlot n) = g t := by
  unfold Tables.coolSlot
  split
  · split <;> exact hs _ _ _
  · rfl

/-- The audit of a slot writes the slot and raises flags. -/
theorem auditSlot_keeps (ha : ∀ (t : Tables) n f, g (t.setActivity n f) = g t)
    (hs : ∀ (t : Tables) n st, g (t.setSlotState n st) = g t) (hraise : ∀ (t : Tables) x, g (t.raise x) = g t)
    (report : List Finding) (t : Tables) (n : Nat) : g (Tables.auditSlot report t n) = g t := by
  unfold Tables.auditSlot Tables.actOn
  split
  · rw [hraise, hs, ha]
  · rw [hs, ha]
  · split
    · rw [hraise, hs, ha]
    · rw [hs, ha]
  · exact ha _ _ _

theorem tellRefusedFold_keeps (hp : ∀ (t : Tables) a c, g (t.post a c) = g t)
    (hm : ∀ (t : Tables) a, g (t.modifyStation a .dropQueued) = g t) (hq : ∀ (t : Tables) q, g { t with queue := q } = g t)
    (t : Tables) (pick : PendingEntry → Bool) (reason : RefuseReason) : g (t.refuseEntries pick reason) = g t := by
  rw [Tables.refuseEntries, foldl_refuse, tellRefused_keeps g hp hm, hq]

end

/-- The tables without slots, leases, stations, queue and alarm flags, which no stage of the close touches before its end. -/
def Tables.fixed (t : Tables) : Policy × BitVec 16 × MapImage := (t.policy, t.mapEpoch, t.reference)

theorem audit_fixed (t : Tables) (report : List Finding) : (t.audit report).fixed = t.fixed :=
  foldl_keeps Tables.fixed _ t.area (fun u n _ => auditSlot_keeps Tables.fixed (fun _ _ _ => by simp [Tables.fixed])
    (fun _ _ _ => by simp [Tables.fixed]) (fun _ _ => rfl) report u n) t

theorem post_fixed (t : Tables) (a : Nat) (c : NoticeContent) : (t.post a c).fixed = t.fixed := by
  simp [Tables.fixed]

theorem auditAndIdle_fixed (t : Tables) (report : List Finding) : (t.auditAndIdle report).fixed = t.fixed :=
  (foldl_keeps Tables.fixed _ leaseIndices (fun u i _ => idleLease_keeps Tables.fixed post_fixed i (fun _ _ => rfl) u) _).trans
    (audit_fixed t report)

theorem closeRecords_fixed (t : Tables) (report : List Finding) : (t.closeRecords report).fixed = t.fixed := by
  unfold Tables.closeRecords
  rw [foldl_keeps Tables.fixed _ _ fun u n _ => coolSlot_keeps Tables.fixed (fun _ _ _ => by simp [Tables.fixed]) u n,
    foldl_keeps Tables.fixed _ _ fun u i _ => deadlineLease_keeps Tables.fixed i (fun _ _ => rfl)
      (fun _ _ _ _ => by simp [Tables.fixed]) u,
    foldl_keeps Tables.fixed _ _ fun u i _ => termLease_keeps Tables.fixed post_fixed i (fun _ _ => rfl) u, auditAndIdle_fixed]

theorem queueWaits_fixed (t : Tables) : t.queueWaits.fixed = t.fixed := by
  rw [Tables.queueWaits, tellRefusedFold_keeps Tables.fixed post_fixed (fun _ _ => by simp [Tables.fixed]) fun _ _ => rfl]
  rfl

theorem passKeeps_fixed (v : Policy × BitVec 16 × MapImage) : Tables.PassKeeps fun t => t.fixed = v where
  post t a c h := (post_fixed t a c).trans h
  drop t a h := Eq.trans (by simp [Tables.fixed]) h
  create t _ _ _ _ _ h _ _ := Eq.trans (by simp [Tables.fixed]) h
  queue _ _ h := h

theorem closeStages_fixed (t : Tables) (report : List Finding) : (t.closeStages report).fixed = t.fixed := by
  rw [closeStages_eq]
  exact queuePass_keeps (passKeeps_fixed t.fixed) _ ((queueWaits_fixed _).trans (closeRecords_fixed t report))

/-- The close by its stages 1 to 7 (R26, R164). -/
theorem periodClose_eq (t : Tables) (report : List Finding) : t.periodClose report =
    { t.closeStages report with
      mapEpoch := if (t.closeStages report).image = t.reference then t.mapEpoch else t.mapEpoch + 1
      reference := (t.closeStages report).image } := by
  have hfixed := closeStages_fixed t report
  simp only [Tables.fixed, Prod.mk.injEq] at hfixed
  obtain ⟨-, hepoch, href⟩ := hfixed
  rw [Tables.periodClose, Tables.settleEpoch, hepoch, href]

theorem periodClose_policy (t : Tables) (report : List Finding) : (t.periodClose report).policy = t.policy :=
  congrArg Prod.fst (closeStages_fixed t report)

/-! ### The records the close is taken with -/

theorem mem_endingLeases (t : Tables) (i : Nat) :
    i ∈ t.endingLeases ↔ (1 ≤ i ∧ i ≤ 48) ∧ ∃ l, t.lease? i = some l ∧ l.phase ≠ .active := by
  simp only [Tables.endingLeases, List.mem_filter, mem_leaseIndices, Option.any_eq_true, ne_eq, ← isEnding_eq_false_iff,
    Bool.not_eq_false]

theorem isCooling_iff (t : Tables) (n : Nat) :
    t.isCooling n = true ↔ ∃ cool linger, t.slotState? n = some (.cooling cool linger) := by
  unfold Tables.isCooling
  cases t.slotState? n with
  | none => simp
  | some st => cases st <;> simp

theorem findingOf_eq (report : List Finding) (n : Nat) (h : 1 ≤ n) : findingOf report n = (report[n - 1]?).getD .quiet := by
  rw [findingOf, nth?, if_neg (by omega)]

theorem mem_coolingQuiet (t : Tables) (report : List Finding) (n : Nat) : n ∈ t.coolingQuiet report ↔
    1 ≤ n ∧ n ≤ t.policy.streamArea ∧ (∃ cool linger, t.slotState? n = some (.cooling cool linger)) ∧
      (report[n - 1]?).getD .quiet = .quiet := by
  simp only [Tables.coolingQuiet, List.mem_filter, mem_area, Bool.and_eq_true, isCooling_iff, beq_iff_eq, and_assoc]
  refine and_congr_right fun h1 => and_congr_right fun _ => and_congr_right fun _ => ?_
  rw [findingOf_eq report n h1]

/-! ### The snapshot (9.2, 12.3) -/

/-- Pairs of bytes one after another: the k-th pair stands at places 2 k and 2 k + 1. -/
theorem getElem?_flatten_pairs {α : Type} (f : α → List Byte) (hf : ∀ v, (f v).length = 2) (vs : List α) (k : Nat) (v : α)
    (x y : Byte) (h : vs[k]? = some v) (hv : f v = [x, y]) :
    (vs.map f).flatten[2 * k]? = some x ∧ (vs.map f).flatten[2 * k + 1]? = some y := by
  induction vs generalizing k with
  | nil => cases h
  | cons w vs ih =>
    have hw := hf w
    rw [List.map_cons, List.flatten_cons]
    cases k with
    | zero =>
      cases h
      rw [hv]
      exact ⟨rfl, rfl⟩
    | succ k =>
      rw [List.getElem?_append_right (by omega), List.getElem?_append_right (by omega), hw,
        show 2 * (k + 1) - 2 = 2 * k by omega, show 2 * (k + 1) + 1 - 2 = 2 * k + 1 by omega]
      exact ih k h

/-- The two bytes of a slot in a snapshot. -/
theorem snapshot_entry (epoch : BitVec 16) (image : MapImage) (n : Nat) (v : SlotView) (x y : Byte) (h1 : 1 ≤ n)
    (h : image.entries[n - 1]? = some v) (hv : v.bytes = [x, y]) :
    (snapshot epoch image)[2 * n + 2]? = some x ∧ (snapshot epoch image)[2 * n + 3]? = some y := by
  have hlt := (List.getElem?_eq_some_iff.mp h).1
  have hlen := length_flatten_slotViews image.entries
  obtain ⟨hx, hy⟩ := getElem?_flatten_pairs SlotView.bytes slotView_bytes_length image.entries (n - 1) v x y h hv
  have hat : ∀ k, k < 2 * image.entries.length →
      (snapshot epoch image)[k + 4]? = (image.entries.map SlotView.bytes).flatten[k]? := fun k hk => by
    rw [snapshot, withCrc, List.getElem?_append_left (by rw [List.length_append, hlen]; simp only [word, List.length_append, List.length_cons, List.length_nil]; omega), List.getElem?_append_right (by simp [word])]
    simp [word]
  rw [show 2 * n + 2 = 2 * (n - 1) + 4 by omega, show 2 * n + 3 = 2 * (n - 1) + 1 + 4 by omega, hat _ (by omega),
    hat _ (by omega)]
  exact ⟨hx, hy⟩

theorem image_entry (t : Tables) (n : Nat) (h1 : 1 ≤ n) (h63 : n ≤ 63) : t.image.entries[n - 1]? = some (t.view n) := by
  simp only [Tables.image, slotNumbers, Config.slotCount, List.getElem?_map, List.getElem?_range' (show n - 1 < 63 by omega),
    Option.map_some]
  rw [show 1 + 1 * (n - 1) = n by omega]

/-- The entry of a slot as the beacon shows it (12.3). -/
theorem snapshot_shows (t : Tables) (href : t.reference = t.image) (n : Nat) (h1 : 1 ≤ n) (h63 : n ≤ 63) : ∃ x y : Byte,
    t.snapshotBytes[2 * n + 2]? = some x ∧ t.snapshotBytes[2 * n + 3]? = some y ∧
      (t.slot n = .outside → x = 0 ∧ y = 0) ∧
      ∀ last,
        (∀ mark, t.slot n = .inArea (.free mark) last → x = 1 ∧ y = if mark then 0x80 else 0) ∧
        (∀ i l, t.slot n = .inArea (.leased i) last → t.lease? i = some l →
          x = (if l.phase = .active then 0x80 ||| byte i else 0xC0 ||| byte i) ∧ y = byte l.owner) ∧
        (∀ cool linger, t.slot n = .inArea (.cooling cool linger) last → x = 4 ∧ y = 0) ∧
        ∀ reason, t.slot n = .inArea (.barred reason) last → x = 5 ∧ y = 0 := by
  obtain ⟨x, y, hv⟩ := List.length_eq_two.mp (slotView_bytes_length (t.view n))
  obtain ⟨hx, hy⟩ := snapshot_entry t.mapEpoch t.image n _ x y h1 (image_entry t n h1 h63) hv
  rw [← href] at hx hy
  have hpair : ∀ a b : Byte, (t.view n).bytes = [a, b] → x = a ∧ y = b := fun a b hab => by
    rw [hv] at hab
    cases hab
    exact ⟨rfl, rfl⟩
  refine ⟨x, y, hx, hy, fun hs => hpair _ _ (by rw [Tables.view, hs]; rfl), fun last => ⟨fun mark hs => ?_, fun i l hs hl => ?_,
    fun cool linger hs => hpair _ _ (by rw [Tables.view, hs]; rfl), fun reason hs => hpair _ _ (by rw [Tables.view, hs]; rfl)⟩⟩
  · exact hpair _ _ (by rw [Tables.view, hs]; rfl)
  · refine hpair _ _ ?_
    simp only [Tables.view, hs, hl]
    cases l.phase <;> rfl

theorem snapshotBytes_whole (t : Tables) (href : t.reference = t.image) : wholeImage t.snapshotBytes := by
  rw [Tables.snapshotBytes, href]
  exact snapshot_whole t.mapEpoch t.image (image_length t)

theorem snapshotBytes_header (t : Tables) (href : t.reference = t.image) :
    t.snapshotBytes.take 4 = [0xA5] ++ word t.mapEpoch.toNat ++ [byte t.policy.streamArea] := by
  rw [Tables.snapshotBytes, href]
  rfl

theorem periodClose_reference (t : Tables) (report : List Finding) :
    (t.periodClose report).reference = (t.periodClose report).image := rfl

theorem takeSnapshot_eq (s : State) (image : List Byte) :
    s.takeSnapshot image = { s with beacon := if s.trunkHeld then ⟨s.beacon.current, some image⟩ else s.beacon } := by
  unfold State.takeSnapshot
  split <;> rfl

/-- The row of the close that is next. -/
theorem exec_close_next (s : State) (report : List Finding) (h : s.nextOperation? = some (.close report)) :
    exec (.periodClose report) s = .next (s.performClose report) := by
  rw [exec_row_waiting (.periodClose report) (.close report) s (by simp [rowTakes]) (waits_of_next s _ h), take_next s _ h]
  rfl

/-- Settles O36: the stages named one after another, the epoch and the snapshot from the tables they leave. -/
theorem periodCloseTaken : Obligations.PeriodCloseTaken := by
  intro report s h
  have href := periodClose_reference s.te report
  obtain ⟨hlen, -, hcrc⟩ := snapshotBytes_whole _ href
  refine ⟨s.te.endingLeases, s.te.coolingQuiet report, _, _, _, _, _, _, _, s.te.periodClose report,
    ⟨(List.pairwise_lt_range' 1).filter _, fun i => ?_⟩, ⟨(List.pairwise_lt_range' 1).filter _, mem_coolingQuiet s.te report⟩,
    rfl, rfl, rfl, rfl, rfl, rfl, rfl, periodClose_eq s.te report, href, periodClose_policy s.te report,
    ⟨(s.te.periodClose report).snapshotBytes, rfl, hlen, snapshotBytes_header _ href, hcrc, fun n h1 h63 => snapshot_shows _ href n h1 h63⟩, ?_⟩
  · rw [mem_endingLeases, and_assoc]
  · rw [exec_close_next s report h, State.performClose, takeSnapshot_eq]
    rfl

/-! ### Idle evaluation -/

theorem wasActive_iff (t : Tables) (n : Nat) : t.wasActive n = true ↔ ∃ state, t.slot n = .inArea state .active := by
  unfold Tables.wasActive
  cases t.slot n with
  | outside => simp
  | inArea st last => cases last <;> simp

theorem idleLease_free (t : Tables) (i : Nat) (h : t.lease? i = none) : t.idleLease i = t := by
  simp [Tables.idleLease, h]

theorem idleLease_passedBy (t : Tables) (i : Nat) (l : Lease) (h : t.lease? i = some l)
    (hp : l.phase ≠ .active ∨ l.pinned = true) : t.idleLease i = t := by
  have : (l.isEnding || l.pinned) = true := by
    rw [Bool.or_eq_true]
    exact hp.imp_left fun ha => Bool.not_eq_false _ ▸ (isEnding_eq_false_iff l).not.mpr ha
  simp [Tables.idleLease, h, this]

theorem idleLease_active (t : Tables) (i : Nat) (l : Lease) (h : t.lease? i = some l) (ha : l.phase = .active)
    (hp : l.pinned = false) (hs : ∃ n ∈ l.slots, t.wasActive n = true) :
    t.idleLease i = t.setLease i { l with idleCount := 0 } := by
  unfold Tables.idleLease
  rw [h]
  dsimp only
  rw [(isEnding_eq_false_iff l).mpr ha, hp, if_neg (by simp), if_pos (List.any_eq_true.mpr hs)]

theorem idleLease_quiet (t : Tables) (i : Nat) (l : Lease) (h : t.lease? i = some l) (ha : l.phase = .active)
    (hp : l.pinned = false) (hs : ∀ n ∈ l.slots, t.wasActive n = false) :
    t.idleLease i = if 0 < l.idleLimit ∧ l.idleLimit ≤ min 255 (l.idleCount + 1)
      then t.enterEnding i { l with idleCount := min 255 (l.idleCount + 1) } .idle
      else t.setLease i { l with idleCount := min 255 (l.idleCount + 1) } := by
  have hany : ¬ l.slots.any t.wasActive = true := fun hany => by
    obtain ⟨n, hn, hw⟩ := List.any_eq_true.mp hany
    rw [hs n hn] at hw
    cases hw
  unfold Tables.idleLease
  rw [h]
  dsimp only
  rw [(isEnding_eq_false_iff l).mpr ha, hp, if_neg (by simp), if_neg hany]

/-! ### The audit slot by slot -/

/-- What the audit makes of a slot record (R9 to R11). -/
def Slot.audited (p : Policy) (f : Finding) : Slot → Slot
  | .outside => .outside
  | .inArea (.free _) _ => .inArea (.free (f == .active)) f
  | .inArea (.cooling cool linger) _ =>
    if f = .quiet then .inArea (.cooling cool linger) f
    else if p.lingerLimit ≤ linger + 1 then .inArea (.barred .linger) f
    else .inArea (.cooling p.coolPeriods (linger + 1)) f
  | .inArea state _ => .inArea state f

/-- The flag the audit of a slot record raises (R10, R11). -/
def Slot.auditRaises (p : Policy) (f : Finding) (x : Alarm) : Slot → Bool
  | .inArea (.free _) _ => f == .active && Alarm.trespass == x
  | .inArea (.cooling _ linger) _ => f == .active && Alarm.linger == x && decide (p.lingerLimit ≤ linger + 1)
  | _ => false

theorem auditSlot_slot (report : List Finding) (t : Tables) (n m : Nat) : (Tables.auditSlot report t n).slot m =
    if m = n then (t.slot n).audited t.policy (findingOf report n) else t.slot m := by
  have hact := setActivity_slot t n
  have hraise : ∀ (u : Tables) x, (u.raise x).slot m = u.slot m := fun _ _ => rfl
  unfold Tables.auditSlot Tables.actOn
  rw [slotState?_setActivity, slotState?_eq]
  cases hs : t.slot n with
  | outside =>
    rw [hs] at hact
    simp only [Slot.state?, hact, Slot.audited]
  | inArea state last =>
    rw [hs] at hact
    cases state with
    | free mark =>
      cases findingOf report n <;> simp only [Slot.state?, hraise, setSlotState_slot, hact, Slot.audited] <;>
        split <;> rfl
    | cooling cool linger =>
      cases findingOf report n with
      | quiet => simp [Slot.state?, hact, Slot.audited]
      | active =>
        simp only [Slot.state?, Slot.audited, setActivity_policy]
        by_cases hl : t.policy.lingerLimit ≤ linger + 1
        · rw [if_pos hl, hraise, setSlotState_slot]
          simp only [hact, hl, reduceCtorEq, ↓reduceIte]
          split <;> rfl
        · rw [if_neg hl, setSlotState_slot]
          simp only [hact, hl, reduceCtorEq, ↓reduceIte]
          split <;> rfl
    | leased i => cases findingOf report n <;> simp [Slot.state?, hact, Slot.audited]
    | barred reason => cases findingOf report n <;> simp [Slot.state?, hact, Slot.audited]

theorem auditSlot_policy (report : List Finding) (t : Tables) (n : Nat) : (Tables.auditSlot report t n).policy = t.policy :=
  auditSlot_keeps Tables.policy setActivity_policy (fun t n st => by simp) (fun _ _ => rfl) report t n

theorem auditSlots_slot (report : List Finding) (ns : List Nat) (hnd : ns.Nodup) (t : Tables) (m : Nat) :
    (ns.foldl (Tables.auditSlot report) t).slot m =
      if m ∈ ns then (t.slot m).audited t.policy (findingOf report m) else t.slot m := by
  induction ns generalizing t with
  | nil => simp
  | cons n ns ih =>
    obtain ⟨hn, hnd⟩ := List.nodup_cons.mp hnd
    rw [List.foldl_cons, ih hnd, auditSlot_policy, auditSlot_slot]
    by_cases hm : m = n
    · subst hm; simp [hn]
    · simp [hm]

theorem alarmSet_of_alarms_eq {t u : Tables} (h : u.alarms = t.alarms) (x : Alarm) : u.alarmSet x = t.alarmSet x := by
  unfold Tables.alarmSet
  rw [h]

theorem auditSlot_alarmSet (report : List Finding) (t : Tables) (n : Nat) (x : Alarm) :
    (Tables.auditSlot report t n).alarmSet x =
      (t.alarmSet x || (t.slot n).auditRaises t.policy (findingOf report n) x) := by
  have hact : ∀ f, (t.setActivity n f).alarmSet x = t.alarmSet x := fun f => alarmSet_of_alarms_eq (setActivity_alarms t n f) x
  have hset : ∀ (u : Tables) st, (u.setSlotState n st).alarmSet x = u.alarmSet x := fun u st =>
    alarmSet_of_alarms_eq (setSlotState_alarms u n st) x
  unfold Tables.auditSlot Tables.actOn
  rw [slotState?_setActivity, slotState?_eq]
  cases hs : t.slot n with
  | outside => simp only [Slot.state?, hact, Slot.auditRaises, Bool.or_false]
  | inArea state last =>
    cases state with
    | free mark =>
      cases findingOf report n with
      | quiet => simp [Slot.state?, hset, hact, Slot.auditRaises]
      | active => simp [Slot.state?, raise_alarmSet, hset, hact, Slot.auditRaises]
    | cooling cool linger =>
      cases findingOf report n with
      | quiet => simp [Slot.state?, hact, Slot.auditRaises]
      | active =>
        simp only [Slot.state?, setActivity_policy]
        by_cases hl : t.policy.lingerLimit ≤ linger + 1
        · simp [hl, raise_alarmSet, hset, hact, Slot.auditRaises]
        · simp [hl, hset, hact, Slot.auditRaises]
    | leased i => cases findingOf report n <;> simp [Slot.state?, hact, Slot.auditRaises]
    | barred reason => cases findingOf report n <;> simp [Slot.state?, hact, Slot.auditRaises]

theorem auditSlots_alarmSet (report : List Finding) (ns : List Nat) (hnd : ns.Nodup) (t : Tables) (x : Alarm) :
    (ns.foldl (Tables.auditSlot report) t).alarmSet x =
      (t.alarmSet x || ns.any fun n => (t.slot n).auditRaises t.policy (findingOf report n) x) := by
  induction ns generalizing t with
  | nil => simp
  | cons n ns ih =>
    obtain ⟨hn, hnd⟩ := List.nodup_cons.mp hnd
    have hrest : ∀ m ∈ ns, (Tables.auditSlot report t n).slot m = t.slot m := fun m hm => by
      rw [auditSlot_slot, if_neg fun heq : m = n => hn (heq ▸ hm)]
    rw [List.foldl_cons, ih hnd, auditSlot_alarmSet, auditSlot_policy, List.any_cons, Bool.or_assoc]
    congr 2
    rw [Bool.eq_iff_iff, List.any_eq_true, List.any_eq_true]
    exact exists_congr fun m => and_congr_right fun hm => by rw [hrest m hm]

theorem area_nodup (t : Tables) : t.area.Nodup := List.nodup_range'

theorem audit_slot (t : Tables) (report : List Finding) (n : Nat) : (t.audit report).slot n =
    if 1 ≤ n ∧ n ≤ t.policy.streamArea then (t.slot n).audited t.policy (findingOf report n) else t.slot n := by
  rw [Tables.audit, auditSlots_slot report t.area (area_nodup t)]
  exact if_congr (mem_area t n) rfl rfl

theorem audit_alarmSet_iff (t : Tables) (report : List Finding) (x : Alarm) : (t.audit report).alarmSet x = true ↔
    t.alarmSet x = true ∨ ∃ n, (1 ≤ n ∧ n ≤ t.policy.streamArea) ∧
      (t.slot n).auditRaises t.policy (findingOf report n) x = true := by
  rw [Tables.audit, auditSlots_alarmSet report t.area (area_nodup t), Bool.or_eq_true, List.any_eq_true]
  exact or_congr_right (exists_congr fun n => and_congr_left' (mem_area t n))

theorem auditRaises_trespass (p : Policy) (f : Finding) (v : Slot) :
    v.auditRaises p f .trespass = true ↔ (∃ mark, v.state? = some (.free mark)) ∧ f = .active := by
  cases v with
  | outside => simp [Slot.auditRaises, Slot.state?]
  | inArea state last => cases state <;> simp [Slot.auditRaises, Slot.state?]

theorem auditRaises_linger (p : Policy) (f : Finding) (v : Slot) : v.auditRaises p f .linger = true ↔
    ∃ cool linger, v.state? = some (.cooling cool linger) ∧ f = .active ∧ p.lingerLimit ≤ linger + 1 := by
  cases v with
  | outside => simp [Slot.auditRaises, Slot.state?]
  | inArea state last => cases state <;> simp [Slot.auditRaises, Slot.state?]

/-- In shaped tables a slot that has a state is one of the stream area. -/
theorem inArea_range (t : Tables) (h : t.shaped) (n : Nat) (st : SlotState) (hs : t.slotState? n = some st) :
    (1 ≤ n ∧ n ≤ 63) ∧ n ≤ t.policy.streamArea := by
  have hout : t.slot n ≠ .outside := fun ho => by rw [slotState?_eq, ho] at hs; cases hs
  have hrange := slot_range t n hout
  have h63 : n ≤ 63 := by have := h.1.1; omega
  exact ⟨⟨hrange.1, h63⟩, Nat.not_lt.mp ((h.2.2 n ((mem_slotNumbers n).mpr ⟨hrange.1, h63⟩)).not.mp hout)⟩

theorem findingOf_active (report : List Finding) (n : Nat) (h1 : 1 ≤ n) :
    findingOf report n = .active ↔ report[n - 1]? = some .active := by
  rw [findingOf_eq report n h1]
  cases report[n - 1]? <;> simp

/-- Settles O37: idle evaluation by the lease, the audit by what it makes of each record and raises for it. -/
theorem auditActsOnFindings : Obligations.AuditActsOnFindings := by
  refine ⟨fun i t => ⟨idleLease_free t i, fun l hl => ⟨idleLease_passedBy t i l hl, fun ha hp => ⟨fun ⟨n, hn, hs⟩ => ?_,
    fun hs => ⟨_, rfl, ?_⟩⟩⟩⟩, fun report t hshape hlen => ⟨fun n hn f hf => ?_, ?_, ?_⟩⟩
  · exact idleLease_active t i l hl ha hp ⟨n, hn, (wasActive_iff t n).mpr hs⟩
  · have hquiet := idleLease_quiet t i l hl ha hp fun n hn => by
      rw [← Bool.not_eq_true, wasActive_iff]
      exact fun ⟨state, hst⟩ => hs n hn state hst
    exact ⟨fun h0 hle => hquiet.trans (if_pos ⟨h0, hle⟩), fun hno => hquiet.trans (if_neg (by omega))⟩
  · rw [mem_slotNumbers] at hn
    have hfind : findingOf report n = f := by rw [findingOf_eq report n hn.1, hf]; rfl
    have hin : ∀ state last, t.slot n = .inArea state last →
        (t.audit report).slot n = (Slot.inArea state last).audited t.policy f := fun state last hs => by
      have := inArea_range t hshape n state (slotState?_of_inArea t n state last hs)
      rw [audit_slot, if_pos ⟨hn.1, this.2⟩, hs, hfind]
    refine ⟨fun hsa => by rw [audit_slot, if_neg (by omega)], fun last => ⟨fun mark hs => hin _ _ hs, fun i hs => hin _ _ hs,
      fun reason hs => hin _ _ hs, fun cool linger hs => hin _ _ hs⟩⟩
  · rw [audit_alarmSet_iff]
    refine or_congr_right (exists_congr fun n => ?_)
    rw [auditRaises_trespass, ← slotState?_eq, mem_slotNumbers]
    constructor
    · rintro ⟨hn, ⟨mark, hs⟩, hf⟩
      exact ⟨(inArea_range t hshape n _ hs).1, mark, hs, (findingOf_active report n hn.1).mp hf⟩
    · rintro ⟨hn, mark, hs, hf⟩
      exact ⟨⟨hn.1, (inArea_range t hshape n _ hs).2⟩, ⟨mark, hs⟩, (findingOf_active report n hn.1).mpr hf⟩
  · rw [audit_alarmSet_iff]
    refine or_congr_right (exists_congr fun n => ?_)
    rw [auditRaises_linger, ← slotState?_eq, mem_slotNumbers]
    constructor
    · rintro ⟨hn, cool, linger, hs, hf, hl⟩
      exact ⟨(inArea_range t hshape n _ hs).1, cool, linger, hs, (findingOf_active report n hn.1).mp hf, hl⟩
    · rintro ⟨hn, cool, linger, hs, hf, hl⟩
      exact ⟨⟨hn.1, (inArea_range t hshape n _ hs).2⟩, cool, linger, hs, (findingOf_active report n hn.1).mpr hf, hl⟩

end Sys2Proof.Machine
end

section
/-! SUPPORT. Stages 3 to 5 on one record, and the rows that name the record that runs out in a close (2.5, 2.3.1, 1.5, 3.4): the
record followed through the stages (O38). -/

namespace Sys2Proof.Machine

set_option Elab.async false

/-! ### Stages 3 to 5 on one record -/

theorem termLease_passedBy (t : Tables) (i : Nat) (l : Lease) (h : t.lease? i = some l)
    (hp : l.phase ≠ .active ∨ l.pinned = true ∨ l.term = .openEnded) : t.termLease i = t := by
  unfold Tables.termLease
  rw [h]
  dsimp only
  rcases hp with hp | hp | hp
  · have : l.isEnding = true := Bool.not_eq_false _ ▸ (isEnding_eq_false_iff l).not.mpr hp
    rw [if_pos (by simp [this])]
  · rw [if_pos (by simp [hp])]
  · rw [hp]
    exact ite_self _

theorem termLease_counts (t : Tables) (i term remaining : Nat) (l : Lease) (h : t.lease? i = some l) (ha : l.phase = .active)
    (hp : l.pinned = false) (ht : l.term = .periods term (remaining + 1)) : t.termLease i =
      if remaining = 0 then t.enterEnding i { l with term := .periods term remaining } .expired
      else if remaining ≤ t.policy.warnPeriods ∧ l.warned = false then
        (t.setLease i { l with term := .periods term remaining, warned := true }).post l.owner (.warn (t.handle i) remaining)
      else t.setLease i { l with term := .periods term remaining } := by
  unfold Tables.termLease
  rw [h]
  dsimp only
  rw [if_neg (by simp [(isEnding_eq_false_iff l).mpr ha, hp]), ht]
  rfl

theorem deadlineLease_active (t : Tables) (i : Nat) (l : Lease) (h : t.lease? i = some l) (ha : l.phase = .active) :
    t.deadlineLease i = t := by
  simp [Tables.deadlineLease, h, ha]

theorem deadlineLease_ending (t : Tables) (i deadline : Nat) (l : Lease) (reason : EndReason) (notice : Option Byte)
    (h : t.lease? i = some l) (ha : l.phase = .ending reason deadline notice) : t.deadlineLease i =
      if deadline - 1 = 0 then t.retire i l reason.retire false
      else t.setLease i { l with phase := .ending reason (deadline - 1) notice } := by
  simp only [Tables.deadlineLease, h, ha]

theorem coolSlot_other (t : Tables) (n : Nat) (h : ∀ cool linger, t.slotState? n ≠ some (.cooling cool linger)) :
    t.coolSlot n = t := by
  unfold Tables.coolSlot
  split
  · next cool linger hs => exact absurd hs (h cool linger)
  · rfl

theorem coolSlot_cooling (t : Tables) (n cool linger : Nat) (h : t.slotState? n = some (.cooling cool linger)) :
    t.coolSlot n = if cool - 1 = 0 then t.setSlotState n (.free false) else t.setSlotState n (.cooling (cool - 1) linger) := by
  simp only [Tables.coolSlot, h]

/-- The work of stages 3, 4 and 5 on one record, case by case. -/
theorem stageRules : (∀ (i : Nat) (t : Tables), t.lease? i = none → t.termLease i = t ∧ t.deadlineLease i = t) ∧
    (∀ (i : Nat) (l : Lease) (t : Tables), t.lease? i = some l →
      (l.phase ≠ .active ∨ l.pinned = true ∨ l.term = .openEnded → t.termLease i = t) ∧
      (l.phase = .active → l.pinned = false → ∀ term remaining,
        (l.term = .periods term 1 →
          t.termLease i = t.enterEnding i { l with term := .periods term 0 } .expired) ∧
        (l.term = .periods term (remaining + 2) → remaining + 1 ≤ t.policy.warnPeriods → l.warned = false →
          t.termLease i = (t.setLease i { l with term := .periods term (remaining + 1), warned := true }).post l.owner
            (.warn ⟨i, (t.entry i).epoch.toNat⟩ (remaining + 1))) ∧
        (l.term = .periods term (remaining + 2) → (t.policy.warnPeriods < remaining + 1 ∨ l.warned = true) →
          t.termLease i = t.setLease i { l with term := .periods term (remaining + 1) })) ∧
      (l.phase = .active → t.deadlineLease i = t) ∧
      ∀ reason deadline notice, l.phase = .ending reason deadline notice →
        (deadline = 1 → t.deadlineLease i = t.retire i l reason.retire false) ∧
        (2 ≤ deadline → t.deadlineLease i = t.setLease i { l with phase := .ending reason (deadline - 1) notice })) ∧
    ∀ (n : Nat) (t : Tables),
      ((∀ cool linger, t.slotState? n ≠ some (.cooling cool linger)) → t.coolSlot n = t) ∧
      ∀ cool linger last, t.slot n = .inArea (.cooling cool linger) last →
        (cool = 1 → t.coolSlot n = t.setSlot n (.inArea (.free false) last)) ∧
        (2 ≤ cool → t.coolSlot n = t.setSlot n (.inArea (.cooling (cool - 1) linger) last)) := by
  refine ⟨fun i t h => ⟨by simp [Tables.termLease, h], by simp [Tables.deadlineLease, h]⟩, fun i l t h =>
    ⟨termLease_passedBy t i l h, fun ha hp term remaining => ⟨fun ht => ?_, fun ht hw hwarn => ?_, fun ht hno => ?_⟩,
      deadlineLease_active t i l h, fun reason deadline notice hph => ?_⟩,
    fun n t => ⟨coolSlot_other t n, fun cool linger last hs => ?_⟩⟩
  · rw [termLease_counts t i term 0 l h ha hp ht, if_pos rfl]
  · rw [termLease_counts t i term (remaining + 1) l h ha hp ht, if_neg (by omega), if_pos ⟨hw, hwarn⟩]
    rfl
  · rw [termLease_counts t i term (remaining + 1) l h ha hp ht, if_neg (by omega), if_neg]
    rintro ⟨hw, hwarn⟩
    rcases hno with hno | hno
    · omega
    · rw [hno] at hwarn; cases hwarn
  · rw [deadlineLease_ending t i deadline l reason notice h hph]
    exact ⟨fun h1 => if_pos (by omega), fun h2 => if_neg (by omega)⟩
  · rw [coolSlot_cooling t n cool linger (slotState?_of_inArea t n _ last hs), setSlotState_of_inArea t n _ _ last hs,
      setSlotState_of_inArea t n _ _ last hs]
    exact ⟨fun h1 => if_pos (by omega), fun h2 => if_neg (by omega)⟩

/-! ### One entry through the stages -/

theorem idleLease_entry_ne (t : Tables) (i j : Nat) (h : i ≠ j) : (t.idleLease j).entry i = t.entry i :=
  idleLease_keeps (Tables.entry · i) (fun t a c => entry_of_leases_eq (post_leases t a c) i) j
    (fun t l => setLease_entry_ne t j i l h) t

theorem termLease_entry_ne (t : Tables) (i j : Nat) (h : i ≠ j) : (t.termLease j).entry i = t.entry i :=
  termLease_keeps (Tables.entry · i) (fun t a c => entry_of_leases_eq (post_leases t a c) i) j
    (fun t l => setLease_entry_ne t j i l h) t

theorem deadlineLease_entry_ne (t : Tables) (i j : Nat) (h : i ≠ j) : (t.deadlineLease j).entry i = t.entry i :=
  deadlineLease_keeps (Tables.entry · i) j (fun t l => setLease_entry_ne t j i l h)
    (fun t l r hl => (retire_entry t j i l r false hl).trans (if_neg h)) t

/-- A walk over distinct indices, each step of which leaves the other entries alone, does to an entry what its own step does. -/
theorem foldl_entry (f : Tables → Nat → Tables) (hf : ∀ (t : Tables) i j, i ≠ j → (f t j).entry i = t.entry i)
    (is : List Nat) (hnd : is.Nodup) (i : Nat) (hi : i ∈ is) (t : Tables) :
    ∃ u : Tables, u.entry i = t.entry i ∧ (is.foldl f t).entry i = (f u i).entry i ∧ ∃ pre : List Nat, u = pre.foldl f t := by
  induction is generalizing t with
  | nil => cases hi
  | cons j is ih =>
    obtain ⟨hj, hnd⟩ := List.nodup_cons.mp hnd
    rcases List.mem_cons.mp hi with rfl | hi
    · refine ⟨t, rfl, ?_, [], rfl⟩
      exact foldl_keeps (Tables.entry · i) f is (fun u k hk => hf u i k fun heq => hj (heq ▸ hk)) (f t i)
    · obtain ⟨u, hu, hfold, pre, rfl⟩ := ih hnd hi (f t j)
      refine ⟨_, hu.trans (hf t i j fun heq => hj (heq ▸ hi)), hfold, j :: pre, rfl⟩

theorem foldl_entry_notMem (f : Tables → Nat → Tables) (hf : ∀ (t : Tables) i j, i ≠ j → (f t j).entry i = t.entry i)
    (is : List Nat) (i : Nat) (hi : i ∉ is) (t : Tables) : (is.foldl f t).entry i = t.entry i :=
  foldl_keeps (Tables.entry · i) f is (fun u k hk => hf u i k fun heq => hi (heq ▸ hk)) t

theorem audit_leases (t : Tables) (report : List Finding) : (t.audit report).leases = t.leases :=
  foldl_keeps Tables.leases _ t.area (fun u n _ => auditSlot_keeps Tables.leases setActivity_leases setSlotState_leases
    (fun _ _ => rfl) report u n) t

/-- An entry that is not taken by stage 4 leaves the close's records as stage 3 left it. -/
theorem coolSlots_entry (t : Tables) (ns : List Nat) (i : Nat) : (ns.foldl Tables.coolSlot t).entry i = t.entry i :=
  foldl_keeps (Tables.entry · i) _ ns (fun u n _ => coolSlot_keeps (Tables.entry · i)
    (fun t n st => entry_of_leases_eq (setSlotState_leases t n st) i) u n) t

theorem queueWaits_entry (t : Tables) (i : Nat) : t.queueWaits.entry i = t.entry i :=
  tellRefusedFold_keeps (Tables.entry · i) (fun t a c => entry_of_leases_eq (post_leases t a c) i)
    (fun t a => entry_of_leases_eq (modifyStation_leases t a _) i) (fun _ _ => rfl) (t.mapQueue .waitDown) _ _

theorem periodClose_entry (t : Tables) (report : List Finding) (i : Nat) :
    (t.periodClose report).entry i = (t.closeStages report).entry i := rfl

/-- Stages 3 and 4 on the tables stages 1 and 2 leave. -/
theorem closeRecords_entry (t : Tables) (report : List Finding) (i : Nat) : (t.closeRecords report).entry i =
    (t.endingLeases.foldl Tables.deadlineLease (leaseIndices.foldl Tables.termLease (t.auditAndIdle report))).entry i :=
  coolSlots_entry _ _ i

/-- A lease that the close's records leave in an entry is there after the close (R58: a pass grants in FREE entries). -/
theorem periodClose_usedEntry (t : Tables) (report : List Finding) (i : Nat) (e : LeaseEntry)
    (h : (t.closeRecords report).entry i = e) (he : e.lease.isSome) : (t.periodClose report).entry i = e := by
  rw [periodClose_entry, closeStages_eq]
  exact queuePass_keeps (passKeeps_usedEntry i e he) _ ((queueWaits_entry _ i).trans h)

theorem periodClose_epoch (t : Tables) (report : List Finding) (i : Nat) :
    ((t.periodClose report).entry i).epoch = ((t.closeRecords report).entry i).epoch := by
  rw [periodClose_entry, closeStages_eq]
  exact queuePass_keeps (passKeeps_epoch i _) _ (congrArg LeaseEntry.epoch (queueWaits_entry _ i))

theorem auditAndIdle_entry_ending (t : Tables) (report : List Finding) (i : Nat) (l : Lease) (h : t.lease? i = some l)
    (hph : l.phase ≠ .active) : (t.auditAndIdle report).entry i = t.entry i := by
  refine List.foldlRecOn (motive := fun u => u.entry i = t.entry i) leaseIndices Tables.idleLease
    (entry_of_leases_eq (audit_leases t report) i) fun u hu j _ => ?_
  by_cases hij : i = j
  · subst hij
    rw [idleLease_passedBy u i l ((congrArg LeaseEntry.lease hu).trans h) (.inl hph), hu]
  · rw [idleLease_entry_ne u i j hij, hu]

theorem termLeases_entry_ending (t : Tables) (is : List Nat) (i : Nat) (l : Lease) (h : t.lease? i = some l)
    (hph : l.phase ≠ .active) : (is.foldl Tables.termLease t).entry i = t.entry i := by
  refine List.foldlRecOn (motive := fun u => u.entry i = t.entry i) is Tables.termLease rfl fun u hu j _ => ?_
  by_cases hij : i = j
  · subst hij
    rw [termLease_passedBy u i l ((congrArg LeaseEntry.lease hu).trans h) (.inl hph), hu]
  · rw [termLease_entry_ne u i j hij, hu]

/-- Up to stage 4 a lease that was ENDING before the close is as it was. -/
theorem stage3_entry_ending (t : Tables) (report : List Finding) (i : Nat) (l : Lease) (h : t.lease? i = some l)
    (hph : l.phase ≠ .active) :
    (leaseIndices.foldl Tables.termLease (t.auditAndIdle report)).entry i = t.entry i := by
  have hidle := auditAndIdle_entry_ending t report i l h hph
  rw [termLeases_entry_ending _ leaseIndices i l ((congrArg LeaseEntry.lease hidle).trans h) hph, hidle]

theorem endingLeases_nodup (t : Tables) : t.endingLeases.Nodup := leaseIndices_nodup.filter _

/-! ### A term that runs out -/

theorem enterEnding_lease? (t : Tables) (i : Nat) (l l' : Lease) (reason : EndReason) (h : t.lease? i = some l) :
    (t.enterEnding i l' reason).lease? i =
      some { l' with phase := .ending reason t.policy.endPeriods (t.noticeRoom l'.owner) } := by
  rw [Tables.enterEnding, lease?_of_leases_eq (post_leases _ _ _), setLease_lease? t i i l _ h, if_pos rfl]

/-- A lease whose last period ends in the close enters ENDING in stage 3 and is left alone by what follows. -/
theorem close_expires (t : Tables) (report : List Finding) (i term : Nat) (l : Lease) (hi : i ∈ leaseIndices)
    (h : (t.auditAndIdle report).lease? i = some l) (ha : l.phase = .active) (hp : l.pinned = false)
    (ht : l.term = .periods term 1) : ∃ notice, (t.periodClose report).lease? i =
      some { l with term := .periods term 0, phase := .ending .expired t.policy.endPeriods notice } := by
  obtain ⟨u, hu, hfold, pre, hpre⟩ :=
    foldl_entry Tables.termLease termLease_entry_ne leaseIndices leaseIndices_nodup i hi (t.auditAndIdle report)
  have hul : u.lease? i = some l := (congrArg LeaseEntry.lease hu).trans h
  have hpolicy : u.policy = t.policy := by
    refine congrArg Prod.fst (show u.fixed = t.fixed from ?_)
    rw [hpre, foldl_keeps Tables.fixed _ _ fun v j _ => termLease_keeps Tables.fixed post_fixed j (fun _ _ => rfl) v,
      auditAndIdle_fixed]
  have hnot : i ∉ t.endingLeases := fun hmem => by
    obtain ⟨-, l0, hl0, hph⟩ := (mem_endingLeases t i).mp hmem
    have hidle := (congrArg LeaseEntry.lease (auditAndIdle_entry_ending t report i l0 hl0 hph)).trans hl0
    cases h.symm.trans hidle
    exact hph ha
  have hterm : (u.termLease i).lease? i =
      some { l with term := .periods term 0, phase := .ending .expired t.policy.endPeriods (u.noticeRoom l.owner) } := by
    rw [termLease_counts u i term 0 l hul ha hp ht, if_pos rfl, enterEnding_lease? u i l _ _ hul, hpolicy]
  have hrecords : (t.closeRecords report).entry i = (u.termLease i).entry i := by
    rw [closeRecords_entry, foldl_entry_notMem _ deadlineLease_entry_ne _ i hnot, hfold]
  refine ⟨_, (congrArg LeaseEntry.lease (periodClose_usedEntry t report i _ hrecords ?_)).trans hterm⟩
  rw [show ((u.termLease i).entry i).lease = _ from hterm]
  rfl

/-! ### A deadline that runs out -/

/-- An ENDING lease with a deadline of 1 is retired in stage 4. -/
theorem close_retires (t : Tables) (report : List Finding) (i : Nat) (l : Lease) (reason : EndReason) (notice : Option Byte)
    (hi : 1 ≤ i ∧ i ≤ 48) (h : t.lease? i = some l) (hph : l.phase = .ending reason 1 notice) :
    ((t.periodClose report).entry i).epoch = (t.entry i).epoch + 1 := by
  have hne : l.phase ≠ .active := by rw [hph]; nofun
  obtain ⟨u, hu, hfold, -⟩ := foldl_entry Tables.deadlineLease deadlineLease_entry_ne t.endingLeases (endingLeases_nodup t) i
    ((mem_endingLeases t i).mpr ⟨hi, l, h, hne⟩) (leaseIndices.foldl Tables.termLease (t.auditAndIdle report))
  rw [stage3_entry_ending t report i l h hne] at hu
  have hul : u.lease? i = some l := (congrArg LeaseEntry.lease hu).trans h
  rw [periodClose_epoch, closeRecords_entry, hfold, deadlineLease_ending u i 1 l reason notice hul hph, if_pos rfl,
    retire_entry u i i l _ _ hul, if_pos rfl, hu]

/-! ### A cool count that runs out -/

theorem auditAndIdle_slots (t : Tables) (report : List Finding) : (t.auditAndIdle report).slots = (t.audit report).slots :=
  foldl_keeps Tables.slots _ leaseIndices (fun u i _ => idleLease_keeps Tables.slots post_slots i (fun _ _ => rfl) u) _

theorem termLeases_slots (t : Tables) (is : List Nat) : (is.foldl Tables.termLease t).slots = t.slots :=
  foldl_keeps Tables.slots _ is (fun u i _ => termLease_keeps Tables.slots post_slots i (fun _ _ => rfl) u) t

theorem retire_slot_notMem (t : Tables) (i n : Nat) (l : Lease) (r : RetireReason) (tell : Bool) (h : n ∉ l.slots) :
    (t.retire i l r tell).slot n = t.slot n := by
  rw [retire_slot, setSlotStates_slot, slot_eq_of_slots_eq (freeEntry_slots t i)]
  cases t.slot n <;> simp [h]

/-- Stage 4 retires leases that were ENDING before the close, with the slots they had: it leaves every other slot. -/
theorem deadlineLeases_slot (t u : Tables) (is : List Nat) (hnd : is.Nodup) (n : Nat)
    (hentry : ∀ i ∈ is, u.entry i = t.entry i) (hn : ∀ i ∈ is, ∀ l, t.lease? i = some l → n ∉ l.slots) :
    (is.foldl Tables.deadlineLease u).slot n = u.slot n := by
  induction is generalizing u with
  | nil => rfl
  | cons i is ih =>
    obtain ⟨hi, hnd⟩ := List.nodup_cons.mp hnd
    rw [List.foldl_cons, ih _ hnd (fun j hj => ?_) (fun j hj => hn j (List.mem_cons_of_mem _ hj))]
    · unfold Tables.deadlineLease
      split
      · rfl
      · next l hl =>
        have hlt : t.lease? i = some l := (congrArg LeaseEntry.lease (hentry i (List.mem_cons_self ..))).symm.trans hl
        split
        · rfl
        · split
          · exact retire_slot_notMem u i n l _ _ (hn i (List.mem_cons_self ..) l hlt)
          · rfl
    · rw [deadlineLease_entry_ne u j i fun heq => hi (heq ▸ hj), hentry j (List.mem_cons_of_mem _ hj)]

theorem coolSlot_slotState?_ne (t : Tables) (n m : Nat) (h : n ≠ m) : (t.coolSlot m).slotState? n = t.slotState? n := by
  unfold Tables.coolSlot
  split
  · split <;> rw [slotState?_setSlotState, if_neg h]
  · rfl

theorem coolSlots_slotState? (ns : List Nat) (hnd : ns.Nodup) (t : Tables) (n linger : Nat) (hn : n ∈ ns)
    (h : t.slotState? n = some (.cooling 1 linger)) : (ns.foldl Tables.coolSlot t).slotState? n = some (.free false) := by
  induction ns generalizing t with
  | nil => cases hn
  | cons m ns ih =>
    obtain ⟨hm, hnd⟩ := List.nodup_cons.mp hnd
    rcases List.mem_cons.mp hn with rfl | hn
    · rw [List.foldl_cons, foldl_keeps (Tables.slotState? · n) _ ns
        (fun u k hk => coolSlot_slotState?_ne u n k fun heq => hm (heq ▸ hk)), coolSlot_cooling t n 1 linger h, if_pos rfl,
        slotState?_setSlotState, if_pos rfl, h]
      rfl
    · exact ih hnd _ hn ((coolSlot_slotState?_ne t n m fun heq => hm (heq ▸ hn)).trans h)

theorem queueWaits_slotState? (t : Tables) (n : Nat) : t.queueWaits.slotState? n = t.slotState? n :=
  tellRefusedFold_keeps (Tables.slotState? · n) (fun t a c => slotState?_eq_of_slots_eq (post_slots t a c) n)
    (fun t a => slotState?_eq_of_slots_eq (modifyStation_slots t a _) n) (fun _ _ => rfl) (t.mapQueue .waitDown) _ _

/-- A queue pass leaves a FREE slot FREE or leases it. -/
theorem passKeeps_freeOrLeased (n : Nat) : Tables.PassKeeps fun t =>
    t.slotState? n = some (.free false) ∨ ∃ i, t.slotState? n = some (.leased i) where
  post t a c h := by rw [slotState?_eq_of_slots_eq (post_slots t a c)]; exact h
  drop t a h := by rw [slotState?_eq_of_slots_eq (modifyStation_slots t a _)]; exact h
  create t i owner slots term idle h _ _ := by
    rw [slotState?_eq_of_slots_eq (createLease_slots t i _), slotState?_setSlotStates,
      slotState?_eq_of_slots_eq (setLease_slots t i _)]
    by_cases hn : n ∈ (Lease.fresh owner slots term idle false).slots
    · refine .inr ⟨i, ?_⟩
      rcases h with h | ⟨j, h⟩ <;> rw [h] <;> simp [hn]
    · rcases h with h | ⟨j, h⟩
      · exact .inl (by rw [h]; simp [hn])
      · exact .inr ⟨j, by rw [h]; simp [hn]⟩
  queue _ _ h := h

theorem coolingQuiet_nodup (t : Tables) (report : List Finding) : (t.coolingQuiet report).Nodup := (area_nodup t).filter _

/-- A slot COOLING with a count of 1 and found quiet becomes FREE in stage 5, and may be leased by the pass. -/
theorem close_frees (t : Tables) (report : List Finding) (n linger : Nat) (hs : t.slotState? n = some (.cooling 1 linger))
    (hr : report[n - 1]? = some .quiet) (hshape : t.shaped) (hmap : t.mapMatchesLeases) :
    (t.periodClose report).slotState? n = some (.free false) ∨
      ∃ i, (t.periodClose report).slotState? n = some (.leased i) := by
  obtain ⟨hn, hsa⟩ := inArea_range t hshape n _ hs
  have hcool : n ∈ t.coolingQuiet report :=
    (mem_coolingQuiet t report n).mpr ⟨hn.1, hsa, ⟨1, linger, hs⟩, by rw [hr]; rfl⟩
  have haudit : (t.audit report).slotState? n = some (.cooling 1 linger) := by
    rw [slotState?_eq, audit_slot, if_pos ⟨hn.1, hsa⟩, findingOf_eq report n hn.1, hr]
    rw [slotState?_eq] at hs
    cases hv : t.slot n with
    | outside => rw [hv] at hs; cases hs
    | inArea st last => rw [hv] at hs; cases hs; rfl
  have hstage3 : (leaseIndices.foldl Tables.termLease (t.auditAndIdle report)).slotState? n = some (.cooling 1 linger) := by
    rw [slotState?_eq_of_slots_eq ((termLeases_slots _ _).trans (auditAndIdle_slots t report)), haudit]
  have hstage4 : (t.endingLeases.foldl Tables.deadlineLease
      (leaseIndices.foldl Tables.termLease (t.auditAndIdle report))).slotState? n = some (.cooling 1 linger) := by
    rw [slotState?_eq, deadlineLeases_slot t _ t.endingLeases (endingLeases_nodup t) n, ← slotState?_eq, hstage3]
    · intro i hi
      obtain ⟨-, l, hl, hph⟩ := (mem_endingLeases t i).mp hi
      exact stage3_entry_ending t report i l hl hph
    · intro i _ l hl hmem
      have := (hmap.1 n ((mem_slotNumbers n).mpr hn) i).mpr ⟨l, hl, hmem⟩
      rw [hs] at this
      cases this
  have hrecords : (t.closeRecords report).slotState? n = some (.free false) :=
    coolSlots_slotState? _ (coolingQuiet_nodup t report) _ n linger hcool hstage4
  exact queuePass_keeps (passKeeps_freeOrLeased n) _ (.inl ((queueWaits_slotState? _ n).trans hrecords))

/-! ### A wait that runs out -/

theorem refuseEntries_queue_mem (t : Tables) (pick : PendingEntry → Bool) (reason : RefuseReason) (y : PendingEntry)
    (hy : y ∈ (t.refuseEntries pick reason).queue) : y ∈ t.queue ∧ ∀ e ∈ t.queue, pick e = true → y.ticket ≠ e.ticket := by
  have hq : (t.refuseEntries pick reason).queue =
      t.queue.filter fun x => decide (∀ e ∈ t.queue.filter pick, x.ticket ≠ e.ticket) := by
    rw [Tables.refuseEntries, foldl_refuse]
    exact tellRefused_keeps Tables.queue post_queue (fun t a => modifyStation_queue t a _) _ _ _
  rw [hq, List.mem_filter, decide_eq_true_eq] at hy
  exact ⟨hy.1, fun e he hp => hy.2 e (List.mem_filter.mpr ⟨he, hp⟩)⟩

theorem closeRecords_queue (t : Tables) (report : List Finding) : (t.closeRecords report).queue = t.queue := by
  unfold Tables.closeRecords Tables.auditAndIdle Tables.audit
  rw [foldl_keeps Tables.queue _ _ fun u n _ => coolSlot_keeps Tables.queue setSlotState_queue u n,
    foldl_keeps Tables.queue _ _ fun u i _ => deadlineLease_keeps Tables.queue i (fun _ _ => rfl)
      (fun t l r _ => retire_queue t i l r false) u,
    foldl_keeps Tables.queue _ _ fun u i _ => termLease_keeps Tables.queue post_queue i (fun _ _ => rfl) u,
    foldl_keeps Tables.queue _ _ fun u i _ => idleLease_keeps Tables.queue post_queue i (fun _ _ => rfl) u,
    foldl_keeps Tables.queue _ _ fun u n _ => auditSlot_keeps Tables.queue setActivity_queue setSlotState_queue
      (fun _ _ => rfl) report u n]

/-- An entry with a wait of 1 has left the queue, and no other entry comes to bear its ticket. -/
theorem close_timesOut (t : Tables) (report : List Finding) (e : PendingEntry) (he : e ∈ t.queue) (hw : e.wait = 1) :
    ∀ y ∈ (t.periodClose report).queue, y.ticket ≠ e.ticket := by
  intro y hy
  obtain ⟨y0, hy0, hticket, -⟩ := queuePass_queue_mem _ y hy
  rw [hticket]
  refine (refuseEntries_queue_mem _ _ _ y0 hy0).2 e.waitDown (List.mem_map.mpr ⟨e, ?_, rfl⟩) ?_
  · exact (closeRecords_queue t report).symm ▸ he
  · rw [show e.waitDown.wait = e.wait - 1 from rfl, hw]
    rfl

/-! ### The rows that name a record -/

theorem performClose_te (s : State) (report : List Finding) : (s.performClose report).te = s.te.periodClose report := by
  rw [State.performClose, takeSnapshot_eq]

theorem closeWith_close (s : State) (runOut : List Finding → List Nat) (k : Nat) (report : List Finding)
    (h : s.nextOperation? = some (.close report)) (hk : k ∈ runOut report) :
    s.closeWith runOut k = s.performClose report := by
  rw [closeWith_next s runOut k report h hk, take_next s _ h]
  rfl

theorem closeWith_notMem (s : State) (runOut : List Finding → List Nat) (k : Nat) (report : List Finding)
    (h : s.nextOperation? = some (.close report)) (hk : k ∉ runOut report) : s.closeWith runOut k = s :=
  closeWith_other s runOut k fun r hr => by
    rw [h] at hr
    cases hr
    exact hk

theorem mem_termsRunningOut (t : Tables) (report : List Finding) (i : Nat) : i ∈ t.termsRunningOut report ↔
    i ∈ leaseIndices ∧ ∃ l, (t.auditAndIdle report).lease? i = some l ∧ l.termRunsOut = true := by
  simp only [Tables.termsRunningOut, List.mem_filter, Option.any_eq_true]

theorem termRunsOut_iff (l : Lease) : l.termRunsOut = true ↔
    l.phase = .active ∧ l.pinned = false ∧ ∃ term remaining, l.term = .periods term remaining ∧ remaining ≤ 1 := by
  rw [Lease.termRunsOut, Bool.and_eq_true, Bool.and_eq_true, Bool.not_eq_true', Bool.not_eq_true', isEnding_eq_false_iff,
    and_assoc]
  refine and_congr_right fun _ => and_congr_right fun _ => ?_
  cases l.term <;> simp [LeaseTerm.remaining?]

theorem mem_deadlinesRunningOut (t : Tables) (i : Nat) : i ∈ t.deadlinesRunningOut ↔ (1 ≤ i ∧ i ≤ 48) ∧
    ∃ l reason deadline notice, t.lease? i = some l ∧ l.phase = .ending reason deadline notice ∧ deadline ≤ 1 := by
  simp only [Tables.deadlinesRunningOut, List.mem_filter, mem_endingLeases, Option.any_eq_true]
  constructor
  · rintro ⟨⟨hi, -⟩, l, hl, hrun⟩
    unfold Lease.deadlineRunsOut at hrun
    split at hrun
    · cases hrun
    · next reason deadline notice hph => exact ⟨hi, l, reason, deadline, notice, hl, hph, of_decide_eq_true hrun⟩
  · rintro ⟨hi, l, reason, deadline, notice, hl, hph, hd⟩
    exact ⟨⟨hi, l, hl, by rw [hph]; nofun⟩, l, hl, by simp [Lease.deadlineRunsOut, hph, hd]⟩

theorem mem_coolsRunningOut (t : Tables) (report : List Finding) (n : Nat) : n ∈ t.coolsRunningOut report ↔
    n ∈ t.coolingQuiet report ∧ ∃ cool linger, t.slotState? n = some (.cooling cool linger) ∧ cool ≤ 1 := by
  simp only [Tables.coolsRunningOut, List.mem_filter, Option.any_eq_true]
  refine and_congr_right fun _ => ⟨?_, ?_⟩
  · rintro ⟨st, hst, hrun⟩
    unfold SlotState.coolRunsOut at hrun
    split at hrun
    · exact ⟨_, _, hst, of_decide_eq_true hrun⟩
    · cases hrun
  · rintro ⟨cool, linger, hst, hc⟩
    exact ⟨_, hst, decide_eq_true hc⟩

theorem mem_waitsRunningOut (t : Tables) (k : Nat) :
    k ∈ t.waitsRunningOut ↔ ∃ e ∈ t.queue, e.wait ≤ 1 ∧ e.ticket = k := by
  simp only [Tables.waitsRunningOut, List.mem_map, List.mem_filter, decide_eq_true_eq, and_assoc]

/-- Settles O38: the rules of the three stages, then for each row whether its record runs out and what the close makes of it. -/
theorem closeStageRowsCountDown : Obligations.CloseStageRowsCountDown := by
  refine ⟨stageRules, fun k s h => ?_, fun report s h => ?_⟩
  · have hother : ∀ runOut, s.closeWith runOut k = s := fun runOut => closeWith_other s runOut k fun r hr => absurd hr (h r)
    exact ⟨congrArg _ (hother _), congrArg _ (hother _), congrArg _ (hother _), congrArg _ (hother _)⟩
  · have hclose := exec_close_next s report h
    have hte := performClose_te s report
    have hsame : ∀ runOut k, k ∉ runOut report → s.closeWith runOut k = s := fun runOut k hk =>
      closeWith_notMem s runOut k report h hk
    have htaken : ∀ runOut k, k ∈ runOut report → s.closeWith runOut k = s.performClose report := fun runOut k hk =>
      closeWith_close s runOut k report h hk
    refine ⟨fun i => ⟨fun hl => congrArg _ (hsame _ i ?_), fun l h1 h48 hl => ⟨fun hno => congrArg _ (hsame _ i ?_),
        fun ha hp term ht => ?_⟩⟩,
      fun i => ⟨fun hl => congrArg _ (hsame (fun _ => s.te.deadlinesRunningOut) i ?_), fun l h1 h48 hl =>
        ⟨fun ha => congrArg _ (hsame (fun _ => s.te.deadlinesRunningOut) i ?_), fun reason deadline notice hph =>
          ⟨fun h2 => congrArg _ (hsame (fun _ => s.te.deadlinesRunningOut) i ?_), fun hd => ?_⟩⟩⟩,
      fun n => ⟨fun hs => congrArg _ (hsame _ n ?_), fun cool linger hs => ⟨fun hno => congrArg _ (hsame _ n ?_),
        fun hc hr hshape hmap => ?_⟩⟩,
      fun k => ⟨fun hk => congrArg _ (hsame (fun _ => s.te.waitsRunningOut) k ?_), fun e he hk hw => ?_⟩⟩
    · rw [mem_termsRunningOut]
      rintro ⟨-, l, hl', -⟩
      cases hl.symm.trans hl'
    · rw [mem_termsRunningOut]
      rintro ⟨-, l', hl', hrun⟩
      cases hl.symm.trans hl'
      obtain ⟨ha, hp, term, remaining, ht, hr⟩ := (termRunsOut_iff l).mp hrun
      rcases hno with hno | hno | hno | ⟨term', remaining', hno⟩
      · exact hno ha
      · rw [hno] at hp; cases hp
      · rw [hno] at ht; cases ht
      · rw [hno] at ht; cases ht; omega
    · have hi := (mem_leaseIndices i).mpr ⟨h1, h48⟩
      obtain ⟨notice, hexp⟩ := close_expires s.te report i term l hi hl ha hp ht
      refine ⟨_, notice, ⟨congrArg Host.Outcome.next (htaken _ i ?_), hclose⟩, by rw [hte]; exact hexp⟩
      exact (mem_termsRunningOut _ _ _).mpr ⟨hi, l, hl, (termRunsOut_iff l).mpr ⟨ha, hp, term, 1, ht, le_rfl⟩⟩
    · rw [mem_deadlinesRunningOut]
      rintro ⟨-, l, _, _, _, hl', -⟩
      cases hl.symm.trans hl'
    · rw [mem_deadlinesRunningOut]
      rintro ⟨-, l', _, _, _, hl', hph, -⟩
      cases hl.symm.trans hl'
      rw [ha] at hph
      cases hph
    · rw [mem_deadlinesRunningOut]
      rintro ⟨-, l', _, _, _, hl', hph', hd⟩
      cases hl.symm.trans hl'
      rw [hph] at hph'
      cases hph'
      omega
    · subst hd
      refine ⟨_, ⟨congrArg Host.Outcome.next (htaken (fun _ => s.te.deadlinesRunningOut) i ?_), hclose⟩, ?_⟩
      · exact (mem_deadlinesRunningOut _ _).mpr ⟨⟨h1, h48⟩, l, reason, 1, notice, hl, hph, le_rfl⟩
      · rw [hte]
        exact close_retires s.te report i l reason notice ⟨h1, h48⟩ hl hph
    · rw [mem_coolsRunningOut]
      rintro ⟨-, cool, linger, hs', -⟩
      exact hs cool linger hs'
    · rw [mem_coolsRunningOut]
      rintro ⟨hmem, cool', linger', hs', hc⟩
      cases hs.symm.trans hs'
      obtain ⟨-, -, -, hquiet⟩ := (mem_coolingQuiet _ _ _).mp hmem
      rcases hno with hno | hno
      · omega
      · rw [hno] at hquiet; cases hquiet
    · subst hc
      refine ⟨_, ⟨congrArg Host.Outcome.next (htaken _ n ?_), hclose⟩, by rw [hte]; exact close_frees s.te report n linger hs hr hshape hmap⟩
      obtain ⟨hn, hsa⟩ := inArea_range s.te hshape n _ hs
      exact (mem_coolsRunningOut _ _ _).mpr
        ⟨(mem_coolingQuiet _ _ _).mpr ⟨hn.1, hsa, ⟨1, linger, hs⟩, by rw [hr]; rfl⟩, 1, linger, hs, le_rfl⟩
    · rw [mem_waitsRunningOut]
      rintro ⟨e, he, hw, het⟩
      have := hk e he het
      omega
    · subst hk
      refine ⟨_, ⟨congrArg Host.Outcome.next (htaken (fun _ => s.te.waitsRunningOut) e.ticket ?_), hclose⟩, ?_⟩
      · exact (mem_waitsRunningOut _ _).mpr ⟨e, he, by omega, rfl⟩
      · rw [hte]
        exact close_timesOut s.te report e he hw

end Sys2Proof.Machine
end

section
/-! SUPPORT. The Trunk Monitor and the beacon (8.1 to 8.3, 9.3, 9.4): the judgement at a frame start, the window that ends, one
TCLK period, the byte the beacon drives (O39 to O43). -/

namespace Sys2Proof.Machine

set_option Elab.async false

/-! ### A frame start at the last bit position -/

/-- At bit position 511 no bit of the frame is left to fill in. -/
theorem fillFrame_last (y : Sync) (al : Alignment) (h : y.alignment? = some al) (h511 : al.bitPos = 511) :
    y.fillFrame = y := by
  cases y with
  | unlocked | confirming _ _ => rfl
  | locked al' w => cases h; simp [Sync.fillFrame, Window.fillFrame, h511]
  | slipping al' w bad => cases h; simp [Sync.fillFrame, Window.fillFrame, h511]

theorem frameStartEvent_last (s : State) (tfs : Bool) (al : Alignment) (h : s.trunk.sync.alignment? = some al)
    (h511 : al.bitPos = 511) : s.frameStartEvent tfs = (s.sampleTfs tfs).frameStart tfs := by
  simp only [State.frameStartEvent, h, fillFrame_last _ al h h511]
  rfl

theorem frameStart_eq (s : State) (tfs : Bool) (al : Alignment) (h : s.trunk.sync.alignment? = some al) :
    s.frameStart tfs = s.deliver.judge (tfs && !al.misplaced) := by
  simp only [State.frameStart, h]

theorem complete_iff (w : Window) : w.complete = true ↔ w.frame = 1023 := by
  simp only [Window.complete, beq_iff_eq, Config.windowFrames]
  omega

theorem deliver_noWindow (s : State) (h : s.trunk.sync.window? = none) : s.deliver = s := by
  simp only [State.deliver, h]

theorem deliver_incomplete (s : State) (w : Window) (h : s.trunk.sync.window? = some w) (hw : w.frame < 1023) :
    s.deliver = s := by
  simp only [State.deliver, h]
  exact if_neg fun hc => by have := (complete_iff w).mp hc; omega

theorem deliver_complete (s : State) (w : Window) (h : s.trunk.sync.window? = some w) (hw : w.frame = 1023) : s.deliver =
    { s with
      arbiter := { s.arbiter with closes := s.arbiter.closes ++ [auditReport s.te.policy.activeThreshold w.counts] }
      beacon := s.beacon.swap } := by
  simp only [State.deliver, h]
  exact if_pos ((complete_iff w).mpr hw)

theorem nextFrame_incomplete (w : Window) (idle : Byte) (h : w.frame < 1023) :
    w.nextFrame idle = { w with frame := w.frame + 1, idle := idle } :=
  if_neg fun hc => by have := (complete_iff w).mp hc; omega

theorem nextFrame_complete (w : Window) (idle : Byte) (h : w.frame = 1023) : w.nextFrame idle = .fresh idle :=
  if_pos ((complete_iff w).mpr h)

/-! ### The judgement -/

theorem judge_confirming (s : State) (good : Bool) (al : Alignment) (n : Nat) (h : s.trunk.sync = .confirming al n) :
    s.judge good = if good then (if 4 ≤ n + 1 then s.enterLocked else s.setSync (.confirming .start (n + 1)))
      else s.setSync .unlocked := by
  simp only [State.judge, h]
  rfl

theorem judge_locked (s : State) (good : Bool) (al : Alignment) (w : Window) (h : s.trunk.sync = .locked al w) :
    s.judge good = if good then s.setSync (.locked .start (w.nextFrame s.te.policy.idleCode))
      else s.setSync (.slipping .start (w.nextFrame s.te.policy.idleCode) 1) := by
  simp only [State.judge, h]

theorem judge_slipping (s : State) (good : Bool) (al : Alignment) (w : Window) (bad : Nat)
    (h : s.trunk.sync = .slipping al w bad) :
    s.judge good = if good then s.setSync (.locked .start (w.nextFrame s.te.policy.idleCode))
      else if 3 ≤ bad + 1 then s.loseTrunk
      else s.setSync (.slipping .start (w.nextFrame s.te.policy.idleCode) (bad + 1)) := by
  simp only [State.judge, h]
  rfl

theorem good_of (tfs misplaced : Bool) (ht : tfs = true) (hm : misplaced = false) : (tfs && !misplaced) = true := by
  rw [ht, hm]; rfl

theorem bad_of (tfs misplaced : Bool) (h : tfs = false ∨ misplaced = true) : (tfs && !misplaced) = false := by
  rcases h with h | h <;> rw [h] <;> simp

/-- A frame start that ends no window is its judgement alone. -/
theorem frameStart_judged (s : State) (tfs : Bool) (al : Alignment) (h : s.trunk.sync.alignment? = some al)
    (h511 : al.bitPos = 511) (hw : ∀ w, s.trunk.sync.window? = some w → w.frame < 1023) :
    exec (.frameStart tfs) s = .next ((s.sampleTfs tfs).judge (tfs && !al.misplaced)) := by
  have hdeliver : (s.sampleTfs tfs).deliver = s.sampleTfs tfs := by
    cases hs : s.trunk.sync.window? with
    | none => exact deliver_noWindow _ hs
    | some w => exact deliver_incomplete _ w hs (hw w hs)
  refine congrArg Host.Outcome.next ?_
  rw [frameStartEvent_last s tfs al h h511, frameStart_eq (s.sampleTfs tfs) tfs al h, hdeliver]

/-- Settles O39: the judgement by the sync state and what is found at the frame start. -/
theorem frameStartJudged : Obligations.FrameStartJudged := by
  intro tfs s
  refine ⟨fun hs => ?_, fun al h511 => ⟨fun good hs => ?_, fun w hw hs => ?_, fun w bad hw hs => ?_⟩⟩
  · have : s.frameStartEvent tfs = s := by simp only [State.frameStartEvent, hs, Sync.alignment?]
    exact congrArg Host.Outcome.next this
  · have hrow := frameStart_judged s tfs al (by rw [hs]; rfl) h511 (by rw [hs]; nofun)
    rw [judge_confirming (s.sampleTfs tfs) _ al good hs] at hrow
    refine ⟨fun ht hm hlt => ?_, fun ht hm hle => ?_, fun hbad => ?_⟩
    · rw [hrow, if_pos (good_of tfs _ ht hm), if_neg (by omega)]; rfl
    · rw [hrow, if_pos (good_of tfs _ ht hm), if_pos hle]; rfl
    · rw [hrow, if_neg (by rw [bad_of tfs _ hbad]; nofun)]; rfl
  · have hrow := frameStart_judged s tfs al (by rw [hs]; rfl) h511 (by rw [hs]; intro w' hw'; cases hw'; exact hw)
    rw [judge_locked (s.sampleTfs tfs) _ al w hs, nextFrame_incomplete w _ hw] at hrow
    refine ⟨fun ht hm => ?_, fun hbad => ?_⟩
    · rw [hrow, if_pos (good_of tfs _ ht hm)]; rfl
    · rw [hrow, if_neg (by rw [bad_of tfs _ hbad]; nofun)]; rfl
  · have hrow := frameStart_judged s tfs al (by rw [hs]; rfl) h511 (by rw [hs]; intro w' hw'; cases hw'; exact hw)
    rw [judge_slipping (s.sampleTfs tfs) _ al w bad hs, nextFrame_incomplete w _ hw] at hrow
    refine ⟨fun ht hm => ?_, fun hbad hlt => ?_, fun hbad hle => ?_⟩
    · rw [hrow, if_pos (good_of tfs _ ht hm)]; rfl
    · rw [hrow, if_neg (by rw [bad_of tfs _ hbad]; nofun), if_neg (by omega)]; rfl
    · rw [hrow, if_neg (by rw [bad_of tfs _ hbad]; nofun), if_pos hle]; rfl

/-! ### The window that ends -/

/-- The part at the frame start that ends a window, when its report is delivered and the images have changed. -/
def State.delivered (s : State) (tfs : Bool) (w : Window) : State :=
  { s.sampleTfs tfs with
    arbiter := { s.arbiter with closes := s.arbiter.closes ++ [auditReport s.te.policy.activeThreshold w.counts] }
    beacon := s.beacon.swap }

/-- The frame start that ends frame 1023: the report is delivered and the images change, then the judgement. -/
theorem windowComplete_judged (s : State) (tfs : Bool) (al : Alignment) (w : Window) (h : s.trunk.sync.alignment? = some al)
    (h511 : al.bitPos = 511) (hs : s.trunk.sync.window? = some w) (hw : w.frame = 1023) :
    exec (.windowComplete tfs) s = .next ((s.delivered tfs w).judge (tfs && !al.misplaced)) ∧
    exec (.frameStart tfs) s = exec (.windowComplete tfs) s := by
  have hany : s.trunk.sync.window?.any Window.complete = true := by rw [hs]; exact (complete_iff w).mpr hw
  have hrow : exec (.frameStart tfs) s = exec (.windowComplete tfs) s := congrArg Host.Outcome.next (if_pos hany).symm
  refine ⟨hrow.symm.trans (congrArg Host.Outcome.next ?_), hrow⟩
  rw [frameStartEvent_last s tfs al h h511, frameStart_eq (s.sampleTfs tfs) tfs al h,
    deliver_complete (s.sampleTfs tfs) w hs hw]
  rfl

theorem held_window (y : Sync) (al : Alignment) (w : Window) (h : y = .locked al w ∨ ∃ bad, y = .slipping al w bad) :
    y.alignment? = some al ∧ y.window? = some w := by
  rcases h with rfl | ⟨bad, rfl⟩ <;> exact ⟨rfl, rfl⟩

/-- Settles O40: the delivery, then the judgement by the sync state. -/
theorem windowCompleteDelivers : Obligations.WindowCompleteDelivers := by
  intro tfs al w s h511
  refine ⟨fun hw hs => ?_, fun hw => ⟨fun hs => ?_, fun bad hs => ?_, fun hs => ?_⟩⟩
  · obtain ⟨-, hwin⟩ := held_window _ al w hs
    refine congrArg Host.Outcome.next (if_neg ?_)
    rw [hwin]
    exact fun hc => by have := (complete_iff w).mp hc; omega
  · have hrow := (windowComplete_judged s tfs al w (by rw [hs]; rfl) h511 (by rw [hs]; rfl) hw).1
    rw [judge_locked (s.delivered tfs w) _ al w hs, nextFrame_complete w _ hw] at hrow
    refine ⟨fun ht hm => ?_, fun hbad => ?_⟩
    · rw [hrow, if_pos (good_of tfs _ ht hm)]; rfl
    · rw [hrow, if_neg (by rw [bad_of tfs _ hbad]; nofun)]; rfl
  · have hrow := (windowComplete_judged s tfs al w (by rw [hs]; rfl) h511 (by rw [hs]; rfl) hw).1
    rw [judge_slipping (s.delivered tfs w) _ al w bad hs, nextFrame_complete w _ hw] at hrow
    refine ⟨fun ht hm => ?_, fun hbad hlt => ?_, fun hbad hle => ?_⟩
    · rw [hrow, if_pos (good_of tfs _ ht hm)]; rfl
    · rw [hrow, if_neg (by rw [bad_of tfs _ hbad]; nofun), if_neg (by omega)]; rfl
    · rw [hrow, if_neg (by rw [bad_of tfs _ hbad]; nofun), if_pos hle]; rfl
  · obtain ⟨hal, hwin⟩ := held_window _ al w hs
    exact (windowComplete_judged s tfs al w hal h511 hwin hw).2

/-! ### The loss of TCLK -/

/-- Settles O41: by the sync state. -/
theorem tclkLostUnlocks : Obligations.TclkLostUnlocks := by
  intro s
  refine ⟨fun hs => congrArg Host.Outcome.next ?_, fun hs => congrArg Host.Outcome.next ?_⟩
  · rcases hs with hs | ⟨al, good, hs⟩ <;> simp only [State.tclkLost, hs]
    · rw [← hs]; rfl
    · rfl
  · rcases hs with ⟨al, w, hs⟩ | ⟨al, w, bad, hs⟩ <;> simp only [State.tclkLost, hs] <;> rfl

/-! ### One TCLK period -/

theorem takeBit_advances (s : State) (tfs tdat : Bool) (al : Alignment) (h : s.trunk.sync.alignment? = some al)
    (hlt : al.bitPos < 511) : s.takeBit tfs tdat = s.setSync (s.trunk.sync.advance tfs tdat) := by
  simp only [State.takeBit, h, Config.frameBits]
  exact if_neg (by omega)

theorem takeBit_starts (s : State) (tfs tdat : Bool) (al : Alignment) (h : s.trunk.sync.alignment? = some al)
    (h511 : al.bitPos = 511) : s.takeBit tfs tdat = s.frameStart tfs := by
  simp only [State.takeBit, h, Config.frameBits]
  exact if_pos (by omega)

theorem takeBit_unlocked (s : State) (tfs tdat : Bool) (h : s.trunk.sync = .unlocked) :
    s.takeBit tfs tdat = s.setSync (if tfs then .confirming .start 0 else .unlocked) := by
  simp only [State.takeBit, h, Sync.alignment?]
  cases tfs with
  | true => rfl
  | false => rw [← h]; rfl

theorem nth?_eq_none (l : List Nat) (n : Nat) (h : n = 0 ∨ l.length < n) : nth? l n = none := by
  unfold nth?
  split
  · rfl
  · exact List.getElem?_eq_none (by omega)

theorem nth?_raiseCount (counts : List Nat) (m n : Nat) :
    nth? (raiseCount counts m) n = if n = m then (nth? counts n).map fun c => min 1024 (c + 1) else nth? counts n := by
  unfold raiseCount
  split
  · next h =>
    subst h
    by_cases hr : n = 0 ∨ counts.length < n
    · rw [nth?_setNth_past counts n n _ hr, nth?_eq_none counts n hr]; rfl
    · rw [nth?_setNth_self counts n _ (by omega) (by omega)]
      obtain ⟨c, hc⟩ : ∃ c, nth? counts n = some c := by
        rw [nth?, if_neg (by omega)]
        exact ⟨_, List.getElem?_eq_getElem (by omega)⟩
      rw [hc]
      rfl
  · next h => exact nth?_setNth_ne counts m n _ h

/-- The byte of slot n ends at bit position 8 n + 7 (R149, R159). -/
theorem endByte_counted (w : Window) (bitPos : Nat) (b : Byte) : (w.endByte bitPos b).frame = w.frame ∧
    (w.endByte bitPos b).idle = w.idle ∧ ∀ n, 1 ≤ n → n ≤ 63 → nth? (w.endByte bitPos b).counts n =
      if bitPos = 8 * n + 7 ∧ b ≠ w.idle then (nth? w.counts n).map fun c => min 1024 (c + 1) else nth? w.counts n := by
  unfold Window.endByte
  split
  · next h =>
    refine ⟨rfl, rfl, fun n _ _ => ?_⟩
    rw [show nth? ({ w with counts := raiseCount w.counts (bitPos / 8) } : Window).counts n = _ from
      nth?_raiseCount w.counts (bitPos / 8) n]
    refine if_congr ⟨fun hn => ⟨by omega, h.2⟩, fun hn => by omega⟩ rfl rfl
  · next h =>
    refine ⟨rfl, rfl, fun n _ _ => (if_neg fun hn => h ⟨by omega, hn.2⟩).symm⟩

/-- The part with another sampled level of TFS. -/
def State.withTfs (s : State) (low : Bool) : State := { s with trunk := { s.trunk with tfsWasLow := low } }

theorem deliver_withTfs (s : State) (low : Bool) : (s.withTfs low).deliver = s.deliver.withTfs low := by
  unfold State.deliver
  dsimp only [State.withTfs]
  split
  · rfl
  · split <;> rfl

theorem judge_withTfs (s : State) (low good : Bool) : (s.withTfs low).judge good = (s.judge good).withTfs low := by
  unfold State.judge
  dsimp only [State.withTfs]
  split
  · rfl
  · split
    · split <;> rfl
    · rfl
  · split <;> rfl
  · split
    · rfl
    · split <;> rfl

theorem frameStart_withTfs (s : State) (low tfs : Bool) : (s.withTfs low).frameStart tfs = (s.frameStart tfs).withTfs low := by
  cases h : s.trunk.sync.alignment? with
  | none => simp only [State.frameStart, State.withTfs, h]
  | some al => rw [frameStart_eq s tfs al h, frameStart_eq (s.withTfs low) tfs al h, deliver_withTfs, judge_withTfs]

/-- Settles O42: by the sync state and the bit position. -/
theorem tclkPeriodTakesOneBit : Obligations.TclkPeriodTakesOneBit := by
  intro level bit s
  refine ⟨fun hs => congrArg Host.Outcome.next ?_, ⟨_, rfl, rfl⟩, fun al => ⟨fun hlt => ⟨fun good hs => ?_, fun w hs => ?_,
    fun w bad hs => ?_⟩, fun h511 hal hlevel => congrArg Host.Outcome.next ?_, fun h511 hal ht hlow => ⟨_, rfl, congrArg Host.Outcome.next ?_⟩⟩⟩
  · exact takeBit_unlocked (s.sampleTfs level) _ bit hs
  · have := takeBit_advances (s.sampleTfs level) (level && s.trunk.tfsWasLow) bit al
      ((congrArg Sync.alignment? hs).trans rfl) hlt
    rw [show (s.sampleTfs level).trunk.sync = _ from hs] at this
    exact congrArg Host.Outcome.next this
  · have := takeBit_advances (s.sampleTfs level) (level && s.trunk.tfsWasLow) bit al
      ((congrArg Sync.alignment? hs).trans rfl) hlt
    rw [show (s.sampleTfs level).trunk.sync = _ from hs] at this
    exact ⟨_, endByte_counted w _ _, congrArg Host.Outcome.next this⟩
  · have := takeBit_advances (s.sampleTfs level) (level && s.trunk.tfsWasLow) bit al
      ((congrArg Sync.alignment? hs).trans rfl) hlt
    rw [show (s.sampleTfs level).trunk.sync = _ from hs] at this
    exact ⟨_, endByte_counted w _ _, congrArg Host.Outcome.next this⟩
  · have hsampled : (level && s.trunk.tfsWasLow) = level := by
      cases level with
      | false => rfl
      | true => rw [hlevel rfl]; rfl
    rw [State.tclkPeriod, hsampled, takeBit_starts (s.sampleTfs level) level bit al hal h511, frameStartEvent_last s level al hal h511]
  · rw [State.tclkPeriod, ht, hlow, Bool.and_false, takeBit_starts (s.sampleTfs true) false bit al hal h511,
      frameStartEvent_last s false al hal h511]
    exact frameStart_withTfs (s.sampleTfs false) false false

/-! ### The beacon -/

/-- Settles O43: slot 0 of a frame while the trunk is held with a current image, and every other state. -/
theorem beaconDrivesSlotZero : Obligations.BeaconDrivesSlotZero := by
  intro s
  refine ⟨fun al w image hs hc hlen => ?_, fun h => ?_⟩
  · obtain ⟨hal, hwin⟩ := held_window _ al w hs
    have hoe : s.bcnOe = decide (al.bitPos < 8) := by simp only [State.bcnOe, hal, hwin, hc]
    have hbyte : s.beaconByte? = some ((image[w.frame]?).getD w.idle) := by simp only [State.beaconByte?, hwin, hc]
    have hout : al.bitPos < 8 → s.bcnOut = some (((image[w.frame]?).getD w.idle).getLsbD (7 - al.bitPos)) := fun h8 => by
      simp only [State.bcnOut, hoe, decide_eq_true h8, hbyte, hal, ↓reduceIte]
    refine ⟨by rw [hoe, decide_eq_true_iff], fun h8 b hb => by rw [hout h8, hb]; rfl, fun h8 h132 => ?_⟩
    rw [hout h8, List.getElem?_eq_none (by omega)]
    rfl
  · unfold State.bcnOe
    rcases h with h | h
    · rw [h]
      split
      · next hc => cases hc
      · rfl
    · unfold State.trunkHeld at h
      rw [Option.isSome_eq_false_iff, Option.isNone_iff_eq_none] at h
      rw [h]

end Sys2Proof.Machine
end

section
/-! SUPPORT. Station replies at their rows (2.1.1, 5.2): the reply taken whole, JOIN in its four cases, LEAVE, GRANT by the
grant decision (O22 to O25). -/

namespace Sys2Proof.Machine

set_option Elab.async false

/-! ### A reply at its row -/

/-- A row whose reply is the arbiter's next operation answers what the reply does. -/
theorem exec_reply_next (i : Instr) (f : ReplyFrame) (o : Bool) (s : State) (hi : replyFrame? i = some f)
    (h : s.nextOperation? = some (.station (.reply f o))) :
    exec i s = .next (s.repliedWith (s.te.takeReply f o).1 f.source f.seq (s.te.takeReply f o).2) := by
  rw [exec_replyRow i f s hi, replied_waiting s f o h, performReply_eq]

theorem exec_reply_eq (i : Instr) (f : ReplyFrame) (o : Bool) (s : State) (te : Tables) (body : Option (List Byte))
    (hi : replyFrame? i = some f) (h : s.nextOperation? = some (.station (.reply f o)))
    (hr : s.te.takeReply f o = (te, body)) : exec i s = .next (s.repliedWith te f.source f.seq body) := by
  rw [exec_reply_next i f o s hi h, hr]

/-- A request that is neither JOIN nor a repetition: it is executed on the tables with the station heard, and its answer is
stored and sent. -/
theorem exec_request (i : Instr) (a : Byte) (seq : BitVec 4) (request : List Byte) (st : Station) (s : State) (te : Tables)
    (answer : Answer) (hi : replyFrame? i = some ⟨a.toNat, seq, none, some request⟩) (hj : isJoin request = false)
    (hw : s.requestWaits a seq request st) (r : Request) (hr : parseRequest request = some r)
    (hte : (s.te.heard a.toNat st).runRequest a.toNat { st with live := .joined, misses := 0 } r = (te, answer)) :
    exec i s = .next (s.repliedWith (te.storeResponse a.toNat seq (answer.body (requestKind request))) a.toNat seq
      (some (answer.body (requestKind request)))) := by
  obtain ⟨hn, hs, hq⟩ := hw
  refine exec_reply_eq i _ false s _ _ hi hn ?_
  rw [takeReply_request _ _ _ _ st hj hs hq]
  simp only [Tables.checkedRequest, hr, hte]

/-! ### The station's entry -/

theorem setStation_setStation (t : Tables) (a : Nat) (v w : Option Station) :
    (t.setStation a v).setStation a w = t.setStation a w := by
  simp only [Tables.setStation, setNth_setNth]

/-- A change of an entry just written is written with it. -/
theorem setStation_modifyStation (t : Tables) (a : Nat) (st st' : Station) (f : Station → Station)
    (h : t.station? a = some st) : (t.setStation a (some st')).modifyStation a f = t.setStation a (some (f st')) := by
  rw [modifyStation_some _ a f st' (by rw [setStation_station? t a a st _ h, if_pos rfl]), setStation_setStation]

theorem heard_station? (t : Tables) (a : Nat) (st : Station) (h : t.station? a = some st) :
    (t.heard a st).station? a = some { st with live := .joined, misses := 0 } := by
  rw [Tables.heard, setStation_station? t a a st _ h, if_pos rfl]

theorem alive_eq_heard (t : Tables) (a : Nat) (st : Station) (h : t.station? a = some st) :
    t.modifyStation a .alive = t.heard a st :=
  modifyStation_some t a _ st h

theorem acknowledge_none (t : Tables) (a : Nat) : t.acknowledge a none = t := by
  unfold Tables.acknowledge
  split
  · next h => cases h
  · rfl

/-! ### JOIN -/

theorem openReply_first (t : Tables) (f : ReplyFrame) (request : List Byte) (tag : BitVec 32) (hr : f.request = some request)
    (ht : joinTag request = some tag) (hs : t.station? f.source = none) :
    t.openReply f = (t.firstJoin f.source tag f.seq, some (joinOk t.policy.defaultQuota)) := by
  simp only [Tables.openReply, hr, Option.bind_some, ht, hs]

theorem openReply_present (t : Tables) (f : ReplyFrame) (request : List Byte) (tag : BitVec 32) (st : Station)
    (hr : f.request = some request) (ht : joinTag request = some tag) (hs : t.station? f.source = some st) :
    t.openReply f = if st.tag = tag ∧ f.seq ≠ st.lastSeq then (t.rejoin f.source f.seq, some (joinOk st.quota))
      else (t, none) := by
  simp only [Tables.openReply, hr, Option.bind_some, ht, hs]

theorem claim?_other (t : Tables) (a : Nat) (request : List Byte) (tag : BitVec 32) (st : Station)
    (ht : joinTag request = some tag) (hs : t.station? a = some st) :
    t.claim? a request = if st.tag = tag then none else some st := by
  simp only [Tables.claim?, ht, hs]

theorem isJoin_of_joinTag (request : List Byte) (tag : BitVec 32) (h : joinTag request = some tag) : isJoin request = true := by
  cases hj : isJoin request with
  | true => rfl
  | false => rw [joinTag_notJoin _ hj] at h; cases h

theorem ownReply_claim (t : Tables) (f : ReplyFrame) (request : List Byte) (tag : BitVec 32) (st : Station)
    (hr : f.request = some request) (ht : joinTag request = some tag) (hs : t.station? f.source = some st)
    (hne : st.tag ≠ tag) : t.ownReply f = (t, some (addressTaken st)) := by
  simp only [Tables.ownReply, hr, claim?_other t f.source request tag st ht hs, if_neg hne]

theorem ownReply_join (t : Tables) (f : ReplyFrame) (request : List Byte) (hr : f.request = some request)
    (hj : isJoin request = true) (hc : t.claim? f.source request = none) : t.ownReply f =
      ((((t.modifyStation f.source .alive).joinStage f.source f.seq request).1).acknowledge f.source f.ack,
        some ((t.modifyStation f.source .alive).joinStage f.source f.seq request).2) := by
  simp only [Tables.ownReply, hr, hc, hj, ↓reduceIte]

/-- The tables of a rejoin but for its queue pass (R78, R65). -/
def Tables.rejoined (t : Tables) (a : Nat) (seq : BitVec 4) (st : Station) : Tables :=
  ({ t with
    queue := t.queue.filter fun e => e.station != a
    leases := t.leases.map fun e => ({ e with lease := e.lease.map (.forgetNotice a) } : LeaseEntry) } : Tables).setStation a
    (some { st with live := .joined, misses := 0, queued := 0, notices := [], overflow := true, lastSeq := seq,
                    lastResponse := [0x01, 0x00, byte st.quota] })

theorem rejoin_eq (t : Tables) (a : Nat) (seq : BitVec 4) (st : Station) (h : t.station? a = some st) :
    t.rejoin a seq = if t.queue.any fun e => e.station == a && e.anchored then (t.rejoined a seq st).queuePass
      else t.rejoined a seq st := by
  have hdrop : t.dropEntriesOf a = ({ t with queue := t.queue.filter fun e => e.station != a } : Tables).setStation a
      (some { st with queued := 0 }) := modifyStation_some _ _ _ _ h
  rw [Tables.rejoin, hdrop,
    setStation_modifyStation ({ t with queue := t.queue.filter fun e => e.station != a } : Tables) a st _ _ h]
  rfl

/-- A station that has been heard and then rejoins: its liveness is written twice. -/
theorem rejoin_heard (t : Tables) (a : Nat) (seq : BitVec 4) (st : Station) (h : t.station? a = some st) :
    (t.heard a st).rejoin a seq = t.rejoin a seq := by
  rw [rejoin_eq _ a seq _ (heard_station? t a st h), rejoin_eq t a seq st h]
  have hsame : (t.heard a st).rejoined a seq { st with live := .joined, misses := 0 } = t.rejoined a seq st :=
    setStation_setStation ({ t with
      queue := t.queue.filter fun e => e.station != a
      leases := t.leases.map fun e => ({ e with lease := e.lease.map (.forgetNotice a) } : LeaseEntry) } : Tables) a _ _
  rw [hsame]
  rfl

theorem joinStage_first (t : Tables) (a : Nat) (seq : BitVec 4) (request : List Byte) (tag : BitVec 32)
    (ht : joinTag request = some tag) (hs : t.station? a = none) :
    t.joinStage a seq request = (t.firstJoin a tag seq, joinOk t.policy.defaultQuota) := by
  simp only [Tables.joinStage, ht, hs]

theorem joinStage_present (t : Tables) (a : Nat) (seq : BitVec 4) (request : List Byte) (tag : BitVec 32) (st : Station)
    (ht : joinTag request = some tag) (hs : t.station? a = some st) : t.joinStage a seq request =
      if seq = st.lastSeq then (t, st.lastResponse) else (t.rejoin a seq, joinOk st.quota) := by
  simp only [Tables.joinStage, ht, hs]

theorem forgetNotice_eq (a : Nat) (l : Lease) : l.forgetNotice a =
    match l.phase with
    | .active => l
    | .ending reason deadline _ => if l.owner = a then { l with phase := .ending reason deadline none } else l := by
  unfold Lease.forgetNotice
  cases hp : l.phase <;> split <;> rfl

/-- Settles O22: by the station's presence, the tag, the sequence number and the kind of poll. -/
theorem joinFourCases : Obligations.JoinFourCases := by
  intro a seq b0 b1 b2 b3 openPoll s h
  have ht := joinTag_join b0 b1 b2 b3
  have hj := isJoin_of_joinTag _ _ ht
  let f : ReplyFrame := ⟨a.toNat, seq, none, some [0x01, b0, b1, b2, b3]⟩
  have hrow := fun te body hr => exec_reply_eq (.join ⟨a, seq, none⟩ [b0, b1, b2, b3]) f openPoll s te body rfl h hr
  refine ⟨fun hs => hrow _ _ ?_, fun st hs => ⟨fun hne => hrow _ _ ?_, fun htag hseq => ⟨_, rfl, hrow _ _ ?_⟩,
    fun htag hseq => ?_⟩⟩
  · cases openPoll with
    | true => exact openReply_first s.te f _ _ rfl ht hs
    | false =>
      have hc : s.te.claim? f.source [0x01, b0, b1, b2, b3] = none := by simp only [Tables.claim?, f, ht, hs]
      refine (ownReply_join s.te f _ rfl hj hc).trans ?_
      simp only [f, modifyStation_none _ _ _ hs, joinStage_first s.te a.toNat seq _ _ ht hs, acknowledge_none]
      rfl
  · cases openPoll with
    | true => exact (openReply_present s.te f _ _ st rfl ht hs).trans (if_neg fun hc => hne hc.1)
    | false => exact ownReply_claim s.te f _ _ st rfl ht hs hne
  · have hrejoin := rejoin_eq s.te a.toNat seq st hs
    unfold Tables.rejoined at hrejoin
    simp only [funext (forgetNotice_eq a.toNat)] at hrejoin
    cases openPoll with
    | true =>
      refine ((openReply_present s.te f _ _ st rfl ht hs).trans (if_pos ⟨htag, hseq⟩)).trans ?_
      exact congrArg₂ Prod.mk hrejoin rfl
    | false =>
      have hc : s.te.claim? f.source [0x01, b0, b1, b2, b3] = none :=
        (claim?_other s.te a.toNat _ _ st ht hs).trans (if_pos htag)
      refine (ownReply_join s.te f _ rfl hj hc).trans ?_
      simp only [f, alive_eq_heard _ _ st hs, acknowledge_none,
        joinStage_present _ _ seq _ _ _ ht (heard_station? s.te a.toNat st hs), if_neg hseq,
        rejoin_heard s.te a.toNat seq st hs]
      exact congrArg₂ Prod.mk hrejoin rfl
  · cases openPoll with
    | true => exact hrow _ _ ((openReply_present s.te f _ _ st rfl ht hs).trans (if_neg fun hc => hc.2 hseq))
    | false =>
      have hc : s.te.claim? f.source [0x01, b0, b1, b2, b3] = none :=
        (claim?_other s.te a.toNat _ _ st ht hs).trans (if_pos htag)
      refine hrow _ _ ((ownReply_join s.te f _ rfl hj hc).trans ?_)
      simp only [f, alive_eq_heard _ _ st hs, acknowledge_none,
        joinStage_present _ _ seq _ _ _ ht (heard_station? s.te a.toNat st hs), if_pos hseq]

/-! ### LEAVE -/

theorem storeResponse_absent (t : Tables) (a : Nat) (seq : BitVec 4) (body : List Byte) (h : t.station? a = none) :
    t.storeResponse a seq body = t :=
  modifyStation_none t a _ h

/-- Settles O23: the removal leaves no entry to store the answer in. -/
theorem leaveRemovesStation : Obligations.LeaveRemovesStation := by
  intro a seq st s hw
  have hs := hw.2.1
  have hheard : ((s.te.heard a.toNat st).station? a.toNat).isSome := by rw [heard_station? s.te a.toNat st hs]; rfl
  refine ⟨?_, removeStation_absent s.te a.toNat .ownerLeft (by rw [hs]; rfl)⟩
  rw [exec_request (.leave ⟨a, seq, none⟩ []) a seq [0x02] st s _ _ rfl rfl hw .leave request_leave rfl,
    storeResponse_absent _ _ _ _ (removeStation_absent _ a.toNat .ownerLeft hheard)]
  rfl

/-! ### The grant decision -/

theorem grantDecision_overQuota (t : Tables) (a : Nat) (st : Station) (g : GrantAsk) (h : st.quota < st.held + g.count) :
    t.grantDecision a st g = (t, ⟨.quota, []⟩) :=
  if_pos h

theorem grantDecision_grants (t : Tables) (a : Nat) (st : Station) (g : GrantAsk) (slots : List Nat) (i : Nat)
    (h : st.held + g.count ≤ st.quota) (hf : t.fits g.count g.contiguous = some (slots, i)) (ha : t.anyAnchored = false) :
    t.grantDecision a st g = (t.createLease i (.fresh a slots (t.policy.clip g.term) g.idleLimit false),
      ⟨.ok, (t.handle i).bytes ++ slotListBytes slots ++ termBytes (t.policy.clip g.term)⟩) := by
  rw [Tables.grantDecision, if_neg (by omega), hf, ha]

/-- What a request that is not granted at once is answered (R53, R54). -/
theorem grantDecision_notAtOnce (t : Tables) (a : Nat) (st : Station) (g : GrantAsk) (h : st.held + g.count ≤ st.quota)
    (hno : t.fits g.count g.contiguous = none ∨ t.anyAnchored = true) : t.grantDecision a st g =
      if t.possible g.count g.contiguous && g.wait then
        if t.queueRoom st then ((t.enqueue a g).1, ⟨.wait, [byte (t.enqueue a g).2]⟩)
        else (t.raise .queueFull, ⟨.queueFull, []⟩)
      else if !g.wait && (t.choice g.count g.contiguous).isSome && !t.anyAnchored && t.freeIndex?.isNone then
        (t.raise .tableFull, ⟨.tableFull, []⟩)
      else (t, ⟨.noRoom, [byte t.grantableSlots]⟩) := by
  rw [Tables.grantDecision, if_neg (by omega)]
  rcases hno with hno | hno
  · rw [hno]
  · rw [hno]
    cases t.fits g.count g.contiguous <;> rfl

theorem anyAnchored_iff (t : Tables) : t.anyAnchored = true ↔ ∃ e ∈ t.queue, e.anchored = true := by
  rw [Tables.anyAnchored, List.any_eq_true]

theorem anyAnchored_eq_false (t : Tables) (h : ∀ e ∈ t.queue, e.anchored = false) : t.anyAnchored = false := by
  rw [← Bool.not_eq_true, anyAnchored_iff]
  rintro ⟨e, he, ha⟩
  rw [h e he] at ha
  cases ha

theorem request_grant_inRange (count flags priority high low idle : Byte) (h1 : 1 ≤ count.toNat) (h8 : count.toNat ≤ 8)
    (hf : flags.toNat ≤ 3) (hp : priority.toNat ≤ 3) : parseRequest [0x03, count, flags, priority, high, low, idle] =
      some (.grant ⟨count.toNat, flags.getLsbD 0, flags.getLsbD 1, priority.toNat, wordOf high low, idle.toNat⟩) := by
  rw [request_grant, if_pos]
  rw [(within_iff 1 count.toNat 8).mpr ⟨h1, h8⟩, decide_eq_true hf, decide_eq_true hp]
  rfl

/-- Settles O24: the decision on the tables with the station heard, whose slots, leases and queue are as they were. -/
theorem grantAtOnce : Obligations.GrantAtOnce := by
  intro a count flags priority high low idle seq st slots i s hw h1 h8 hf hp hquota hanch hchoice hfree
  refine ⟨_, rfl, ?_⟩
  have hfits : (s.te.heard a.toNat st).fits count.toNat (flags.getLsbD 0) = some (slots, i) :=
    (fits_eq_some _ _ _ _ _).mpr ⟨hchoice, (freeIndex?_eq_some_iff s.te i).mpr hfree⟩
  exact exec_request (.grant ⟨a, seq, none⟩ [count, flags, priority, high, low, idle]) a seq _ st s _ _ rfl rfl hw _
    (request_grant_inRange count flags priority high low idle h1 h8 hf hp)
    (grantDecision_grants (s.te.heard a.toNat st) a.toNat _ _ slots i hquota hfits (anyAnchored_eq_false s.te hanch))

/-- Settles O25: the decision at its row, then its table: quota, room to wait, a lease entry, NO_ROOM. -/
theorem grantNotAtOnce : Obligations.GrantNotAtOnce := by
  refine ⟨fun a count flags priority high low idle seq st s hw h1 h8 hf hp => ⟨_, _, rfl, ?_⟩,
    fun a st g t => ⟨grantDecision_overQuota t a st g, fun hquota hno => ?_⟩⟩
  · exact exec_request (.grant ⟨a, seq, none⟩ [count, flags, priority, high, low, idle]) a seq _ st s _ _ rfl rfl hw _
      (request_grant_inRange count flags priority high low idle h1 h8 hf hp) rfl
  · rw [grantDecision_notAtOnce t a st g hquota (hno.symm.imp (fits_eq_none t _ _) (anyAnchored_iff t).mpr)]
    refine ⟨fun hposs hwait => ⟨fun h16 h2 => ?_, fun hfull => ?_⟩, fun hnot => ⟨fun hwait hchoice hanch => ?_, fun hrest => ?_⟩⟩
    · rw [if_pos (by rw [hposs, hwait]; rfl), if_pos ((queueRoom_iff t st).mpr ⟨h16, h2⟩)]
    · rw [if_pos (by rw [hposs, hwait]; rfl), if_neg (by rw [queueRoom_iff]; omega)]
      rfl
    · have hnone : t.freeIndex? = none := by
        rcases hno with ⟨e, he, ha⟩ | hc | hfree
        · rw [hanch e he] at ha; cases ha
        · rw [hc] at hchoice; cases hchoice
        · exact (freeIndex?_eq_none_iff t).mpr hfree
      rw [hwait, hchoice, anyAnchored_eq_false t hanch, hnone, Bool.and_false, if_neg (by nofun)]
      rfl
    · have hwaits : (t.possible g.count g.contiguous && g.wait) = false := by
        rcases hnot with hnot | hnot <;> rw [hnot] <;> simp
      have hentry : (!g.wait && (t.choice g.count g.contiguous).isSome && !t.anyAnchored && t.freeIndex?.isNone) = false := by
        rcases hrest with hrest | hrest | hrest
        · rw [hrest]; rfl
        · rw [hrest]; simp
        · rw [(anyAnchored_iff t).mpr hrest]; simp
      rw [hwaits, hentry, if_neg (by nofun), if_neg (by nofun), grantableSlots_eq]

end Sys2Proof.Machine
end

section
/-! SUPPORT. Requests on a handle and on the own records: RENEW, RELEASE, ATTACH, DETACH, the queries, LIST_MINE, CANCEL and
the reply without a request (O26 to O31). -/

namespace Sys2Proof.Machine

set_option Elab.async false

/-! ### Requests on a handle -/

/-- A request on a handle with its index in range runs on that handle. -/
theorem exec_handleRequest (i : Instr) (a index epoch : Byte) (seq : BitVec 4) (request : List Byte) (st : Station) (s : State)
    (te : Tables) (answer : Answer) (hi : replyFrame? i = some ⟨a.toNat, seq, none, some request⟩)
    (hj : isJoin request = false) (hw : s.requestWaits a seq request st) (r : Handle → Request)
    (hr : parseRequest request = onHandle index epoch r) (hindex : isIndex index.toNat = true)
    (hte : (s.te.heard a.toNat st).runRequest a.toNat { st with live := .joined, misses := 0 } (r (handleOf index epoch)) =
      (te, answer)) :
    exec i s = .next (s.repliedWith (te.storeResponse a.toNat seq (answer.body (requestKind request))) a.toNat seq
      (some (answer.body (requestKind request)))) :=
  exec_request i a seq request st s te answer hi hj hw _ (by rw [hr, onHandle, if_pos hindex]) hte

section
variable (t : Tables) (a : Nat) (h : Handle)

theorem requestRenew_stale (n : Nat) (hv : t.validLease? h = none) : t.requestRenew a h n = (t, plain .staleHandle) := by
  simp only [Tables.requestRenew, hv]

theorem requestRelease_stale (hv : t.validLease? h = none) : t.requestRelease a h = (t, plain .staleHandle) := by
  simp only [Tables.requestRelease, hv]

theorem requestAttach_stale (hv : t.validLease? h = none) : t.requestAttach a h = (t, plain .staleHandle) := by
  simp only [Tables.requestAttach, hv]

theorem requestDetach_stale (hv : t.validLease? h = none) : t.requestDetach a h = (t, plain .staleHandle) := by
  simp only [Tables.requestDetach, hv]

theorem requestQueryLease_stale (hv : t.validLease? h = none) : t.requestQueryLease h = (t, plain .staleHandle) := by
  simp only [Tables.requestQueryLease, hv]

variable (l : Lease) (hv : t.validLease? h = some l)
include hv

theorem requestRenew_notOwner (n : Nat) (ho : l.owner ≠ a) : t.requestRenew a h n = (t, plain .notOwner) := by
  simp only [Tables.requestRenew, hv, if_pos ho]

theorem requestRenew_ending (n : Nat) (ho : l.owner = a)
    (hp : ∃ reason d notice, l.phase = .ending reason d notice ∧ reason ≠ .expired) :
    t.requestRenew a h n = (t, plain .leaseEnding) := by
  obtain ⟨reason, d, notice, hp, hne⟩ := hp
  simp only [Tables.requestRenew, hv, ho, ne_eq, not_true_eq_false, ↓reduceIte, hp]
  cases reason with
  | expired => exact absurd rfl hne
  | revoked => rfl
  | idle => rfl

theorem requestRenew_renews (n : Nat) (ho : l.owner = a)
    (hp : l.phase = .active ∨ ∃ d notice, l.phase = .ending .expired d notice) : t.requestRenew a h n =
      (t.setLease h.index (l.renewed (t.policy.clip n)), ⟨.ok, h.bytes ++ termBytes (t.policy.clip n)⟩) := by
  rcases hp with hp | ⟨d, notice, hp⟩ <;>
    simp only [Tables.requestRenew, hv, ho, ne_eq, not_true_eq_false, ↓reduceIte, hp]

theorem requestRelease_notOwner (ho : l.owner ≠ a) : t.requestRelease a h = (t, plain .notOwner) := by
  simp only [Tables.requestRelease, hv, if_pos ho]

theorem requestRelease_retires (ho : l.owner = a) :
    t.requestRelease a h = (t.retire h.index l .released false, plain .ok) := by
  simp only [Tables.requestRelease, hv, if_neg (not_not.mpr ho)]

theorem requestAttach_listening (hl : l.owner = a ∨ a ∈ l.listeners) :
    t.requestAttach a h = (t, plain .alreadyListening) := by
  simp only [Tables.requestAttach, hv, if_pos hl]

theorem requestAttach_ending (hl : ¬ (l.owner = a ∨ a ∈ l.listeners)) (hp : l.phase ≠ .active) :
    t.requestAttach a h = (t, plain .leaseEnding) := by
  have he : l.isEnding = true := Bool.not_eq_false _ ▸ (isEnding_eq_false_iff l).not.mpr hp
  simp only [Tables.requestAttach, hv, if_neg hl, he, ↓reduceIte]

/-- ATTACH to an ACTIVE lease that the station neither owns nor listens to: by the room in the list. -/
theorem requestAttach_active (hl : ¬ (l.owner = a ∨ a ∈ l.listeners)) (hp : l.phase = .active) :
    t.requestAttach a h = if 4 ≤ l.listeners.length then (t, plain .listenersFull)
      else (t.setLease h.index { l with listeners := l.listeners ++ [a] }, ⟨.ok, h.bytes ++ [byte (l.listeners.length + 1)]⟩) := by
  simp only [Tables.requestAttach, hv, if_neg hl, (isEnding_eq_false_iff l).mpr hp, Bool.false_eq_true, ↓reduceIte]
  rfl

theorem requestDetach_notListening (hl : a ∉ l.listeners) : t.requestDetach a h = (t, plain .notListening) := by
  simp only [Tables.requestDetach, hv, if_neg hl]

theorem requestDetach_listening (hl : a ∈ l.listeners) :
    t.requestDetach a h = (t.setLease h.index (l.dropListener a), ⟨.ok, h.bytes⟩) := by
  simp only [Tables.requestDetach, hv, if_pos hl]

theorem requestQueryLease_views : t.requestQueryLease h = (t, ⟨.ok, l.viewBytes⟩) := by
  simp only [Tables.requestQueryLease, hv]

end

theorem clip_eq (p : Policy) (n : Nat) : p.clip n = if n = 0 then (if p.openTerm then none else some p.maxTerm)
    else if p.maxTerm < n then some p.maxTerm else some n := by
  unfold Policy.clip
  split
  · rfl
  · split
    · rw [Nat.min_eq_right (by omega)]
    · rw [Nat.min_eq_left (by omega)]

theorem renewed_eq (l : Lease) (term : Option Nat) : l.renewed term =
    { l with term := .ofTerm term, warned := false, phase := .active } := rfl

/-- Settles O26: by the handle, the owner and the lease's state. -/
theorem renewAndReleaseNeedOwnership : Obligations.RenewAndReleaseNeedOwnership := by
  refine ⟨fun a i e high low seq st s hw => ?_, fun a i e seq st s hw => ?_⟩
  · have hrow := fun te answer => exec_handleRequest (.renew ⟨a, seq, none⟩ [i, e, high, low]) a i e seq _ st s te answer rfl rfl
      hw _ (request_renew i e high low)
    refine ⟨fun hs => ?_, fun l hn => ?_⟩
    · obtain ⟨hv, hi⟩ := validLease?_stale s.te i e hs
      exact hrow _ _ hi (requestRenew_stale (s.te.heard a.toNat st) _ _ _ hv)
    · obtain ⟨hv, hi⟩ := validLease?_names s.te i e l hn
      refine ⟨fun ho => ?_, fun ho hp => ?_, fun ho hp => ⟨_, clip_eq s.te.policy (wordOf high low), ?_⟩⟩
      · exact hrow _ _ hi (requestRenew_notOwner (s.te.heard a.toNat st) _ _ l hv _ ho)
      · exact hrow _ _ hi (requestRenew_ending (s.te.heard a.toNat st) _ _ l hv _ ho hp)
      · have hdone := hrow _ _ hi (requestRenew_renews (s.te.heard a.toNat st) _ _ l hv _ ho hp)
        rw [handleOf_bytes, heard_policy, renewed_eq] at hdone
        refine hdone.trans ?_
        cases s.te.policy.clip (wordOf high low) <;> rfl
  · have hrow := fun te answer => exec_handleRequest (.release ⟨a, seq, none⟩ [i, e]) a i e seq _ st s te answer rfl rfl
      hw _ (request_release i e)
    refine ⟨fun hs => ?_, fun l hn => ?_⟩
    · obtain ⟨hv, hi⟩ := validLease?_stale s.te i e hs
      exact hrow _ _ hi (requestRelease_stale (s.te.heard a.toNat st) _ _ hv)
    · obtain ⟨hv, hi⟩ := validLease?_names s.te i e l hn
      exact ⟨fun ho => hrow _ _ hi (requestRelease_notOwner (s.te.heard a.toNat st) _ _ l hv ho),
        fun ho => hrow _ _ hi (requestRelease_retires (s.te.heard a.toNat st) _ _ l hv ho)⟩

/-- Settles O27: by the handle, then the checks in their order. -/
theorem attachAndDetachKeepListeners : Obligations.AttachAndDetachKeepListeners := by
  have hattach := fun (a i e : Byte) seq st s hw te answer => exec_handleRequest (.attach ⟨a, seq, none⟩ [i, e]) a i e seq _ st s
    te answer rfl rfl hw _ (request_attach i e)
  have hdetach := fun (a i e : Byte) seq st s hw te answer => exec_handleRequest (.detach ⟨a, seq, none⟩ [i, e]) a i e seq _ st s
    te answer rfl rfl hw _ (request_detach i e)
  refine ⟨fun a i e seq st l s hw hn => ?_, fun a i e seq st l s hw hn => ?_, fun a i e seq st s hs => ?_⟩
  · obtain ⟨hv, hi⟩ := validLease?_names s.te i e l hn
    have hrow := fun te answer => hattach a i e seq st s hw te answer hi
    refine ⟨fun hl => ?_, fun ho hm hp => ?_, fun ho hm hp h4 => ?_, fun ho hm hp h4 => ?_⟩
    · exact hrow _ _ (requestAttach_listening (s.te.heard a.toNat st) _ _ l hv hl)
    · exact hrow _ _ (requestAttach_ending (s.te.heard a.toNat st) _ _ l hv (not_or.mpr ⟨ho, hm⟩) hp)
    · exact hrow _ _ ((requestAttach_active (s.te.heard a.toNat st) _ _ l hv (not_or.mpr ⟨ho, hm⟩) hp).trans (if_pos h4))
    · have hdone := hrow _ _ ((requestAttach_active (s.te.heard a.toNat st) _ _ l hv (not_or.mpr ⟨ho, hm⟩) hp).trans
        (if_neg (by omega)))
      rw [handleOf_bytes] at hdone
      exact hdone
  · obtain ⟨hv, hi⟩ := validLease?_names s.te i e l hn
    have hrow := fun te answer => hdetach a i e seq st s hw te answer hi
    refine ⟨fun hm => hrow _ _ (requestDetach_notListening (s.te.heard a.toNat st) _ _ l hv hm), fun hm => ?_⟩
    have hdone := hrow _ _ (requestDetach_listening (s.te.heard a.toNat st) _ _ l hv hm)
    rw [handleOf_bytes] at hdone
    exact hdone
  · obtain ⟨hv, hi⟩ := validLease?_stale s.te i e hs
    exact ⟨fun hw => hattach a i e seq st s hw _ _ hi (requestAttach_stale (s.te.heard a.toNat st) _ _ hv),
      fun hw => hdetach a i e seq st s hw _ _ hi (requestDetach_stale (s.te.heard a.toNat st) _ _ hv)⟩

/-! ### Queries -/

section
variable (t : Tables) (n : Nat) (last : Finding)

theorem slotView_outside (h : t.slot n = .outside) : t.slotView n = [0, 0, 0, 0] := by
  simp only [Tables.slotView, h]

theorem slotView_free (mark : Bool) (h : t.slot n = .inArea (.free mark) last) :
    t.slotView n = [if mark then 9 else 1, 0, 0, 0] := by
  simp only [Tables.slotView, h]
  cases mark <;> rfl

theorem slotView_leased (i : Nat) (l : Lease) (h : t.slot n = .inArea (.leased i) last) (hl : t.lease? i = some l) :
    t.slotView n = [if l.phase = .active then 2 else 3, byte i, byte (t.entry i).epoch.toNat, byte l.owner] := by
  simp only [Tables.slotView, h, hl, Option.any_some, ← isEnding_eq_false_iff]
  cases l.isEnding <;> rfl

theorem slotView_cooling (cool linger : Nat) (h : t.slot n = .inArea (.cooling cool linger) last) :
    t.slotView n = [4, 0, 0, 0] := by
  simp only [Tables.slotView, h]

theorem slotView_barred (reason : BarReason) (h : t.slot n = .inArea (.barred reason) last) :
    t.slotView n = [if reason = .manager then 0x15 else 0x25, 0, 0, 0] := by
  simp only [Tables.slotView, h]
  cases reason <;> rfl

end

theorem viewFlags_eq (pinned : Bool) (term : LeaseTerm) :
    ((if pinned then 0x01 else 0) ||| (if term.term?.isNone then 0x02 else 0) : Byte) =
      (if pinned then 1 else 0) + (if term = .openEnded then 2 else 0) := by
  cases term <;> cases pinned <;> simp [LeaseTerm.term?]

theorem viewBytes_eq (l : Lease) : l.viewBytes =
    [l.phase.stateByte, byte l.owner] ++ slotListBytes l.slots ++ word (l.term.remaining?.getD 0) ++
      [byte l.listeners.length, ((if l.pinned then 1 else 0) + (if l.term = .openEnded then 2 else 0) : Byte)] := by
  rw [Lease.viewBytes, viewFlags_eq]

/-- Settles O28: the slot's view by its record, the lease's view by its phase and its two flags. -/
theorem queriesReportViews : Obligations.QueriesReportViews := by
  refine ⟨fun a n seq st s hw h1 h63 => ?_, fun a i e seq st s hw => ⟨fun hs => ?_, fun l hn => ?_⟩⟩
  · refine ⟨[0x08, 0x00, byte s.te.policy.streamArea] ++ s.te.slotView n.toNat, ?_, fun h => ?_, fun last =>
      ⟨fun mark h => ?_, fun i l h hl => ?_, fun cool linger h => ?_, fun reason h => ?_⟩⟩
    · exact exec_request (.querySlot ⟨a, seq, none⟩ [n]) a seq _ st s _ _ rfl rfl hw (.querySlot n.toNat)
        ((request_querySlot n).trans (if_pos ((within_iff 1 n.toNat 63).mpr ⟨h1, h63⟩))) rfl
    · rw [slotView_outside _ _ h]; rfl
    · rw [slotView_free _ _ _ _ h]; rfl
    · rw [slotView_leased _ _ _ _ _ h hl]; rfl
    · rw [slotView_cooling _ _ _ _ _ h]; rfl
    · rw [slotView_barred _ _ _ _ h]; rfl
  · obtain ⟨hv, hi⟩ := validLease?_stale s.te i e hs
    exact exec_handleRequest (.queryLease ⟨a, seq, none⟩ [i, e]) a i e seq _ st s _ _ rfl rfl hw _ (request_queryLease i e) hi
      (requestQueryLease_stale (s.te.heard a.toNat st) _ hv)
  · obtain ⟨hv, hi⟩ := validLease?_names s.te i e l hn
    refine ⟨[0x09, 0x00] ++ l.viewBytes, ?_, ?_⟩
    · rw [viewBytes_eq]
      cases l.phase with
      | active => rfl
      | ending reason => cases reason <;> rfl
    · exact exec_handleRequest (.queryLease ⟨a, seq, none⟩ [i, e]) a i e seq _ st s _ _ rfl rfl hw _ (request_queryLease i e) hi
        (requestQueryLease_views (s.te.heard a.toNat st) _ l hv)

/-! ### LIST_MINE -/

/-- A field of a fixed number of bytes, filled up with 00h. -/
theorem padded_getElem? (xs : List Byte) (n k : Nat) (h : k < n) :
    ((xs ++ List.replicate n 0).take n)[k]? = some (xs[k]?.getD 0) := by
  rw [List.getElem?_take_of_lt h, List.getElem?_append]
  split
  · next hk => rw [List.getElem?_eq_getElem hk]; rfl
  · next hk =>
    rw [List.getElem?_replicate, if_pos (by omega), List.getElem?_eq_none (Nat.le_of_not_lt hk)]
    rfl

theorem padded_length (xs : List Byte) (n : Nat) : ((xs ++ List.replicate n 0).take n).length = n := by
  simp

theorem getElem?_append_add (xs ys : List Byte) (n j : Nat) (h : xs.length = n) : (xs ++ ys)[n + j]? = ys[j]? := by
  rw [List.getElem?_append_right (by omega), h, Nat.add_sub_cancel_left]

/-- The places of the 21 bytes of a LIST_MINE response (12.1). -/
theorem page_places (a b c d e f g : Byte) (handles tickets body : List Byte) (h12 : handles.length = 12)
    (h2 : tickets.length = 2) (hb : body = [a, b, c] ++ (handles ++ ([d, e] ++ (tickets ++ [f, g])))) :
    body.length = 21 ∧ body.take 3 = [a, b, c] ∧ (∀ j, j < 12 → body[3 + j]? = handles[j]?) ∧ body[15]? = some d ∧
      body[16]? = some e ∧ (∀ j, j < 2 → body[17 + j]? = tickets[j]?) ∧ body[19]? = some f ∧ body[20]? = some g := by
  have past : ∀ j, body[3 + j]? = (handles ++ ([d, e] ++ (tickets ++ [f, g])))[j]? := fun j => by
    rw [hb, getElem?_append_add _ _ 3 j rfl]
  have pastHandles : ∀ j, body[3 + (12 + j)]? = ([d, e] ++ (tickets ++ [f, g]))[j]? := fun j => by
    rw [past, getElem?_append_add _ _ 12 j h12]
  have pastCounts : ∀ j, body[3 + (12 + (2 + j))]? = (tickets ++ [f, g])[j]? := fun j => by
    rw [pastHandles, getElem?_append_add _ _ 2 j rfl]
  have pastTickets : ∀ j, body[3 + (12 + (2 + (2 + j)))]? = [f, g][j]? := fun j => by
    rw [pastCounts, getElem?_append_add _ _ 2 j h2]
  refine ⟨by simp [hb, h12, h2], by rw [hb]; rfl, fun j hj => ?_, pastHandles 0, pastHandles 1, fun j hj => ?_, pastTickets 0,
    pastTickets 1⟩
  · rw [past, List.getElem?_append_left (by omega)]
  · rw [show 17 + j = 3 + (12 + (2 + j)) by omega, pastCounts, List.getElem?_append_left (by omega)]

/-- The indices a station owns from one on, in ascending order, are the ones listed. -/
theorem ownedBy_from (t : Tables) (a start : Nat) (owned : List Nat) (h1 : 1 ≤ start) (hsorted : owned.Pairwise (· < ·))
    (hmem : ∀ i, i ∈ owned ↔ start ≤ i ∧ i ≤ 48 ∧ ∃ l, t.lease? i = some l ∧ l.owner = a) :
    ((t.ownedBy a).filter fun i => start ≤ i) = owned := by
  have hpage : ((t.ownedBy a).filter fun i => start ≤ i).Pairwise (· < ·) :=
    ((List.pairwise_lt_range' 1).filter _).filter _
  refine List.Perm.eq_of_pairwise' hpage hsorted ((List.perm_ext_iff_of_nodup hpage.nodup hsorted.nodup).mpr fun i => ?_)
  rw [List.mem_filter, mem_ownedBy, hmem, decide_eq_true_eq]
  constructor
  · rintro ⟨⟨⟨-, h48⟩, hl⟩, hs⟩
    exact ⟨hs, h48, hl⟩
  · rintro ⟨hs, h48, hl⟩
    exact ⟨⟨⟨by omega, h48⟩, hl⟩, hs⟩

/-- The handle bytes of a page. -/
def Tables.pageHandles (t : Tables) (owned : List Nat) : List Byte :=
  (((owned.take 6).map fun i => (t.handle i).bytes).flatten ++ List.replicate 12 0).take 12

theorem pageHandles_some (t : Tables) (owned : List Nat) (k i : Nat) (hk : k < 6) (h : owned[k]? = some i) :
    (t.pageHandles owned)[2 * k]? = some (byte i) ∧
      (t.pageHandles owned)[2 * k + 1]? = some (byte (t.entry i).epoch.toNat) := by
  obtain ⟨hx, hy⟩ := getElem?_flatten_pairs (fun i => (t.handle i).bytes) (fun _ => rfl) (owned.take 6) k i _ _
    (by rw [List.getElem?_take_of_lt hk, h]) rfl
  unfold Tables.pageHandles
  rw [padded_getElem? _ _ _ (by omega), padded_getElem? _ _ _ (by omega), hx, hy]
  exact ⟨rfl, rfl⟩

theorem pageHandles_none (t : Tables) (owned : List Nat) (k : Nat) (hk : k < 6) (h : owned[k]? = none) :
    (t.pageHandles owned)[2 * k]? = some 0 ∧ (t.pageHandles owned)[2 * k + 1]? = some 0 := by
  have hshort : (((owned.take 6).map fun i => (t.handle i).bytes).flatten).length ≤ 2 * k := by
    have hk' := List.getElem?_eq_none_iff.mp h
    simp [List.length_flatten, Function.comp_def, Handle.bytes]
    omega
  unfold Tables.pageHandles
  rw [padded_getElem? _ _ _ (by omega), padded_getElem? _ _ _ (by omega), List.getElem?_eq_none (by omega),
    List.getElem?_eq_none (by omega)]
  exact ⟨rfl, rfl⟩

/-- Settles O29: the page is the first six of the listed indices, and the station's entry is written three times over. -/
theorem listMineReportsAndClearsOverflow : Obligations.ListMineReportsAndClearsOverflow := by
  intro a start seq st owned tickets s hw h1 h48 hsorted hmem htickets htwo
  have hpage := ownedBy_from s.te a.toNat start.toNat owned h1 hsorted hmem
  let body : List Byte := [0x0A, 0x00, byte (min 6 owned.length)] ++ (s.te.pageHandles owned ++
    ([if 6 < owned.length then 1 else 0, byte tickets.length] ++
      ((tickets.map byte ++ List.replicate 2 0).take 2 ++ [byte st.held, byte st.quota])))
  obtain ⟨hlength, htake, hhandles, hmore, hcount, hnumbers, hheld, hquota⟩ :=
    page_places _ _ _ _ _ _ _ _ _ body (padded_length _ 12) (padded_length _ 2) rfl
  refine ⟨body, hlength, htake, fun k i hk hi => ?_, fun k hk hi => ?_, hmore, hcount, fun k hk => ?_, hheld, hquota, ?_⟩
  · rw [show 4 + 2 * k = 3 + (2 * k + 1) by omega, hhandles _ (by omega), hhandles _ (by omega)]
    exact pageHandles_some s.te owned k i hk hi
  · rw [show 4 + 2 * k = 3 + (2 * k + 1) by omega, hhandles _ (by omega), hhandles _ (by omega)]
    exact pageHandles_none s.te owned k hk hi
  · rw [hnumbers k hk, padded_getElem? _ 2 k hk, List.getElem?_map]
    cases tickets[k]? <;> rfl
  · have hrun : (s.te.heard a.toNat st).requestListMine a.toNat { st with live := .joined, misses := 0 } start.toNat =
        (s.te.setStation a.toNat (some { st with live := .joined, misses := 0, overflow := false }), ⟨.ok, body.drop 2⟩) := by
      refine Prod.ext (setStation_modifyStation s.te a.toNat st _ _ hw.2.1) ?_
      have hlisted : (s.te.heard a.toNat st).ownedBy a.toNat = s.te.ownedBy a.toNat := rfl
      simp only [Tables.requestListMine, hlisted, hpage, heard_queue, ← htickets, Config.pageMax, List.length_take, boolByte,
        decide_eq_true_eq]
      simp only [body, Tables.pageHandles, List.append_assoc]
      rfl
    have hrow := exec_request (.listMine ⟨a, seq, none⟩ [start]) a seq _ st s _ _ rfl rfl hw (.listMine start.toNat)
      ((request_listMine start).trans (if_pos ((within_iff 1 start.toNat 48).mpr ⟨h1, h48⟩))) hrun
    have hbody : (⟨.ok, body.drop 2⟩ : Answer).body 0x0A = body := rfl
    refine hrow.trans ?_
    rw [show requestKind [0x0A, start] = 0x0A from rfl, hbody, Tables.storeResponse,
      setStation_modifyStation s.te a.toNat st _ _ hw.2.1]

/-! ### CANCEL -/

theorem byte_toNat (b : Byte) : byte b.toNat = b :=
  BitVec.ofNat_toNat 8 b |>.trans (BitVec.setWidth_eq b)

theorem requestCancel_none (t : Tables) (a ticket : Nat) (h : ∀ e ∈ t.queue, e.ticket = ticket → e.station ≠ a) :
    t.requestCancel a ticket = (t, plain .noTicket) := by
  have hfind : (t.queue.find? fun e => e.ticket == ticket && e.station == a) = none := by
    rw [List.find?_eq_none]
    intro e he hc
    rw [Bool.and_eq_true, beq_iff_eq, beq_iff_eq] at hc
    exact h e he hc.1 hc.2
  simp only [Tables.requestCancel, hfind]

/-- With distinct tickets the entry found is the one that bears the ticket. -/
theorem requestCancel_own (t : Tables) (a ticket : Nat) (e : PendingEntry) (hd : (t.queue.map PendingEntry.ticket).Nodup)
    (he : e ∈ t.queue) (ht : e.ticket = ticket) (hs : e.station = a) :
    t.requestCancel a ticket = ((t.removeEntry ticket a).passIf e.anchored, ⟨.ok, [byte ticket]⟩) := by
  have hfind : (t.queue.find? fun e => e.ticket == ticket && e.station == a) = some e := by
    have hsome : ((t.queue.find? fun e => e.ticket == ticket && e.station == a)).isSome := by
      rw [List.find?_isSome]
      exact ⟨e, he, by rw [ht, hs, beq_self_eq_true, beq_self_eq_true]; rfl⟩
    obtain ⟨x, hx⟩ := Option.isSome_iff_exists.mp hsome
    have hxp := List.find?_some hx
    rw [Bool.and_eq_true, beq_iff_eq] at hxp
    rw [hx, List.inj_on_of_nodup_map hd (List.mem_of_find?_eq_some hx) he (hxp.1.trans ht.symm)]
  simp only [Tables.requestCancel, hfind]

/-- Settles O30: by the entry that bears the ticket. -/
theorem cancelWithdrawsOwnEntry : Obligations.CancelWithdrawsOwnEntry := by
  intro a ticket seq st s hw h1
  have hrow := fun te answer => exec_request (.cancel ⟨a, seq, none⟩ [ticket]) a seq _ st s te answer rfl rfl hw
    (.cancel ticket.toNat) ((request_cancel ticket).trans (if_neg (by omega)))
  refine ⟨fun hnone => ?_, fun hd e he ht hs => ⟨_, rfl, ?_⟩⟩
  · exact hrow _ _ (requestCancel_none (s.te.heard a.toNat st) _ _ hnone)
  · have hdone := hrow _ _ (requestCancel_own (s.te.heard a.toNat st) _ _ e hd he ht hs)
    have hremoved : (s.te.heard a.toNat st).removeEntry ticket.toNat a.toNat =
        ({ s.te with queue := s.te.queue.filter fun x => x.ticket != ticket.toNat } : Tables).setStation a.toNat
          (some { st with live := .joined, misses := 0, queued := st.queued - 1 }) :=
      setStation_modifyStation ({ s.te with queue := s.te.queue.filter fun x => x.ticket != ticket.toNat } : Tables)
        a.toNat st _ _ hw.2.1
    rw [hremoved, byte_toNat] at hdone
    exact hdone

/-! ### No request -/

theorem ownReply_idle (t : Tables) (f : ReplyFrame) (h : f.request = none) :
    t.ownReply f = ((t.modifyStation f.source .alive).acknowledge f.source f.ack, none) := by
  simp only [Tables.ownReply, h]

theorem openReply_other (t : Tables) (f : ReplyFrame) (h : f.request.bind joinTag = none) : t.openReply f = (t, none) := by
  simp only [Tables.openReply, h]

theorem acknowledge_absent (t : Tables) (a : Nat) (ack : Option Byte) (h : t.station? a = none) :
    t.acknowledge a ack = t := by
  simp only [Tables.acknowledge, h]

/-- Settles O31: liveness and the acknowledgment after an own poll, nothing after an open one. -/
theorem idleReplyDrawsNoResponse : Obligations.IdleReplyDrawsNoResponse := by
  intro a seq ack s
  let f : ReplyFrame := ⟨a.toNat, seq, ack, none⟩
  refine ⟨fun h => ?_, fun h => ⟨fun hs => ?_, fun st hs => ?_⟩⟩
  · exact exec_reply_eq (.idle ⟨a, seq, ack⟩) f true s _ _ rfl h (openReply_other s.te f rfl)
  · refine exec_reply_eq (.idle ⟨a, seq, ack⟩) f false s _ _ rfl h ((ownReply_idle s.te f rfl).trans ?_)
    simp only [f, modifyStation_none _ _ _ hs, acknowledge_absent s.te a.toNat ack hs]
  · refine exec_reply_eq (.idle ⟨a, seq, ack⟩) f false s _ _ rfl h ((ownReply_idle s.te f rfl).trans ?_)
    simp only [f, alive_eq_heard s.te a.toNat st hs]

end Sys2Proof.Machine
end

section
/-! SUPPORT. Replies refused and repeated, and the acknowledgment stage (O32, O33). -/

namespace Sys2Proof.Machine

set_option Elab.async false

/-! ### The reply in response to an own poll -/

theorem claim?_noTag (t : Tables) (a : Nat) (request : List Byte) (h : joinTag request = none) :
    t.claim? a request = none := by
  simp only [Tables.claim?, h]

theorem ownReply_request (t : Tables) (f : ReplyFrame) (request : List Byte) (hr : f.request = some request)
    (hj : isJoin request = false) : t.ownReply f =
      (((t.modifyStation f.source .alive).requestStage f.source f.seq request).1.acknowledge f.source f.ack,
        some ((t.modifyStation f.source .alive).requestStage f.source f.seq request).2) := by
  simp only [Tables.ownReply, hr, claim?_noTag t _ _ (joinTag_notJoin request hj), hj, Bool.false_eq_true, ↓reduceIte]

theorem requestStage_absent (t : Tables) (a : Nat) (seq : BitVec 4) (request : List Byte) (h : t.station? a = none) :
    t.requestStage a seq request = (t, [request.headD 0, 0x0E]) := by
  simp only [Tables.requestStage, h]
  rfl

theorem requestStage_repeats (t : Tables) (a : Nat) (seq : BitVec 4) (request : List Byte) (st : Station)
    (h : t.station? a = some st) (hseq : seq = st.lastSeq) : t.requestStage a seq request = (t, st.lastResponse) := by
  simp only [Tables.requestStage, h, if_pos hseq]

theorem requestStage_refuses (t : Tables) (a : Nat) (seq : BitVec 4) (request : List Byte) (st : Station)
    (h : t.station? a = some st) (hseq : seq ≠ st.lastSeq) (hp : parseRequest request = none) :
    t.requestStage a seq request = (t.storeResponse a seq [request.headD 0, 0x0D], [request.headD 0, 0x0D]) := by
  simp only [Tables.requestStage, h, if_neg hseq, Tables.checkedRequest, hp]
  rfl

theorem joinStage_bad (t : Tables) (a : Nat) (seq : BitVec 4) (request : List Byte) (h : joinTag request = none) :
    t.joinStage a seq request = (t.storeResponse a seq [0x01, 0x0D], [0x01, 0x0D]) := by
  simp only [Tables.joinStage, h]
  rfl

/-! ### Fields that are not good -/

theorem parseRequest_unknown (body : List Byte) (h : knownKind body = false) : parseRequest body = none := by
  cases body with
  | nil => rfl
  | cons kind fields =>
    have hk : ¬ (1 ≤ kind.toNat ∧ kind.toNat ≤ 11) := (within_iff 1 kind.toNat 11).not.mp (Bool.not_eq_true _ ▸ h)
    simp only [parseRequest]
    unfold requestFields
    split <;> first | omega | rfl

theorem isJoin_unknown (body : List Byte) (h : knownKind body = false) : isJoin body = false := by
  cases body with
  | nil => rfl
  | cons kind fields =>
    rw [isJoin, List.head?_cons, beq_eq_false_iff_ne]
    rintro hk
    cases hk
    cases h

theorem onByte_badLength (fields : List Byte) (r : Byte → Option Request) (h : fields.length ≠ 1) :
    onByte fields r = none := by
  unfold onByte
  split
  · exact absurd rfl h
  · rfl

theorem onHandleOnly_badLength (fields : List Byte) (r : Handle → Request) (h : fields.length ≠ 2) :
    onHandleOnly fields r = none := by
  unfold onHandleOnly
  split
  · exact absurd rfl h
  · rfl

theorem parseGrant_badLength (fields : List Byte) (h : fields.length ≠ 6) : parseGrant fields = none := by
  unfold parseGrant
  split
  · exact absurd rfl h
  · rfl

theorem parseRenew_badLength (fields : List Byte) (h : fields.length ≠ 4) : parseRenew fields = none := by
  unfold parseRenew
  split
  · exact absurd rfl h
  · rfl

theorem parseRequest_badLength (kind : Byte) (n : Nat) (fields : List Byte)
    (h : (kind, n) ∈ ([(0x02, 0), (0x03, 6), (0x04, 4), (0x05, 2), (0x06, 2), (0x07, 2), (0x08, 1), (0x09, 2), (0x0A, 1),
      (0x0B, 1)] : List (Byte × Nat))) (hl : fields.length ≠ n) : parseRequest (kind :: fields) = none := by
  simp only [List.mem_cons, Prod.mk.injEq, List.not_mem_nil, or_false] at h
  rcases h with ⟨rfl, rfl⟩ | ⟨rfl, rfl⟩ | ⟨rfl, rfl⟩ | ⟨rfl, rfl⟩ | ⟨rfl, rfl⟩ | ⟨rfl, rfl⟩ | ⟨rfl, rfl⟩ | ⟨rfl, rfl⟩ |
    ⟨rfl, rfl⟩ | ⟨rfl, rfl⟩
  · exact if_neg fun h0 => hl (by rw [h0]; rfl)
  · exact parseGrant_badLength fields hl
  · exact parseRenew_badLength fields hl
  · exact onHandleOnly_badLength fields _ hl
  · exact onHandleOnly_badLength fields _ hl
  · exact onHandleOnly_badLength fields _ hl
  · exact onByte_badLength fields _ hl
  · exact onHandleOnly_badLength fields _ hl
  · exact onByte_badLength fields _ hl
  · exact onByte_badLength fields _ hl

theorem byte_outOfRange (n : Byte) (high : Nat) (h : n = 0 ∨ high < n.toNat) : ¬ (1 ≤ n.toNat ∧ n.toNat ≤ high) := by
  rcases h with rfl | h
  · exact fun h1 => absurd h1.1 (by decide)
  · omega

theorem onHandle_outOfRange (i e : Byte) (r : Handle → Request) (h : i = 0 ∨ 48 < i.toNat) : onHandle i e r = none :=
  if_neg ((within_iff 1 i.toNat 48).not.mpr (byte_outOfRange i 48 h))

theorem request_grant_outOfRange (count flags priority high low idle : Byte)
    (h : count = 0 ∨ 8 < count.toNat ∨ 3 < flags.toNat ∨ 3 < priority.toNat) :
    parseRequest [0x03, count, flags, priority, high, low, idle] = none := by
  rw [request_grant, if_neg]
  rw [Bool.and_eq_true, Bool.and_eq_true, within_iff, decide_eq_true_eq, decide_eq_true_eq]
  rintro ⟨⟨hc, hf⟩, hp⟩
  rcases h with h | h | h | h
  · exact byte_outOfRange count 8 (.inl h) hc
  · omega
  · omega
  · omega

/-- The kinds that carry a handle alone refuse an index out of range. -/
theorem request_handle_outOfRange (kind i e : Byte) (h : i = 0 ∨ 48 < i.toNat)
    (hk : kind ∈ ([0x05, 0x06, 0x07, 0x09] : List Byte)) : parseRequest [kind, i, e] = none := by
  simp only [List.mem_cons, List.not_mem_nil, or_false] at hk
  rcases hk with rfl | rfl | rfl | rfl
  all_goals exact onHandle_outOfRange i e _ h

/-- Settles O32: the reply to an own poll by the request's form, the station's presence and the sequence number; the reply to
an open poll by its tag. -/
theorem refusedAndRepeatedRequests : Obligations.RefusedAndRepeatedRequests := by
  refine ⟨⟨fun i f request st s hi hr hj hn hs hseq hp => ?_, fun h body s hk => ?_, fun h body hk => ⟨?_, isJoin_unknown body hk,
    parseRequest_unknown body hk⟩, parseRequest_badLength, request_grant_outOfRange,
    fun kind i e high low hi => ⟨(request_renew i e high low).trans (onHandle_outOfRange i e _ hi), request_handle_outOfRange kind i e hi⟩,
    fun n hn => if_neg ((within_iff 1 n.toNat 63).not.mpr (byte_outOfRange n 63 hn)),
    fun n hn => if_neg ((within_iff 1 n.toNat 48).not.mpr (byte_outOfRange n 48 hn)), rfl⟩,
    fun i f request s hi hr => ⟨fun hn ht => ?_, fun hn => ⟨fun hj hs => ?_, fun hj ht hs => ?_,
      fun st hs => ⟨fun hj hseq => ?_, fun hj ht => ?_⟩⟩⟩⟩
  · refine exec_reply_eq i f false s _ _ hi hn ((ownReply_request s.te f request hr hj).trans ?_)
    rw [alive_eq_heard _ _ st hs, requestStage_refuses _ _ _ _ _ (heard_station? s.te f.source st hs) hseq hp]
  · exact congrArg Host.Outcome.next (if_pos hk)
  · simp only [replyFrame?, hk, Bool.false_eq_true, ↓reduceIte, headFrame]
  · exact exec_reply_eq i f true s _ _ hi hn (openReply_other s.te f (by rw [hr]; exact ht))
  · refine exec_reply_eq i f false s _ _ hi hn ((ownReply_request s.te f request hr hj).trans ?_)
    rw [modifyStation_none _ _ _ hs, requestStage_absent _ _ _ _ hs, acknowledge_absent _ _ _ hs]
  · refine exec_reply_eq i f false s _ _ hi hn ((ownReply_join s.te f request hr hj (claim?_noTag _ _ _ ht)).trans ?_)
    rw [modifyStation_none _ _ _ hs, joinStage_bad _ _ _ _ ht, storeResponse_absent _ _ _ _ hs, acknowledge_absent _ _ _ hs]
  · refine exec_reply_eq i f false s _ _ hi hn ((ownReply_request s.te f request hr hj).trans ?_)
    rw [alive_eq_heard _ _ st hs, requestStage_repeats _ _ _ _ _ (heard_station? s.te f.source st hs) hseq]
  · refine exec_reply_eq i f false s _ _ hi hn ((ownReply_join s.te f request hr hj (claim?_noTag _ _ _ ht)).trans ?_)
    rw [alive_eq_heard _ _ st hs, joinStage_bad _ _ _ _ ht]

/-! ### The acknowledgment -/

theorem validLease?_eq_some_iff (t : Tables) (h : Handle) (l : Lease) :
    t.validLease? h = some l ↔ t.lease? h.index = some l ∧ h.epoch = (t.entry h.index).epoch.toNat := by
  unfold Tables.validLease?
  split
  · next he => exact ⟨fun hl => ⟨hl, he⟩, And.left⟩
  · next he => exact ⟨nofun, fun hl => absurd hl.2 he⟩

/-- The notice removed tells of an ENDING lease of the station that waits for it: the lease is retired. -/
theorem afterAck_retires (t : Tables) (a : Nat) (n : Notice) (h : Handle) (r : EndReason) (d : Nat) (l : Lease)
    (reason : EndReason) (deadline : Nat) (hc : n.content = .ending h r d) (hv : t.validLease? h = some l) (ho : l.owner = a)
    (hp : l.phase = .ending reason deadline (some n.number)) :
    t.afterAck a n = t.retire h.index l reason.retire false := by
  simp only [Tables.afterAck, hc, hv, hp, ho, and_self, ↓reduceIte]

theorem afterAck_keeps (t : Tables) (a : Nat) (n : Notice)
    (hno : ∀ h r d l reason deadline, n.content = .ending h r d → t.validLease? h = some l → l.owner = a →
      l.phase ≠ .ending reason deadline (some n.number)) : t.afterAck a n = t := by
  unfold Tables.afterAck
  split
  · next h r d hc =>
    split
    · rfl
    · next l hv =>
      split
      · next reason deadline number hp =>
        refine if_neg ?_
        rintro ⟨ho, rfl⟩
        exact hno h r d l reason deadline hc hv ho hp
      · rfl
  · rfl

theorem acknowledge_empty (t : Tables) (a : Nat) (number : Byte) (st : Station) (hs : t.station? a = some st)
    (h : st.notices = []) : t.acknowledge a (some number) = t := by
  simp only [Tables.acknowledge, hs, h]

theorem acknowledge_oldest (t : Tables) (a : Nat) (number : Byte) (st : Station) (n : Notice) (rest : List Notice)
    (hs : t.station? a = some st) (h : st.notices = n :: rest) : t.acknowledge a (some number) =
      if n.number = number then (t.setStation a (some { st with notices := rest })).afterAck a n else t := by
  simp only [Tables.acknowledge, hs, h]

/-- But for a claim, the acknowledgment is matched against the tables that the same reply without one leaves. -/
theorem ownReply_acknowledges (t : Tables) (f : ReplyFrame)
    (hclaim : ∀ request, f.request = some request → t.claim? f.source request = none) :
    t.ownReply f = ((t.ownReply { f with ack := none }).1.acknowledge f.source f.ack,
      (t.ownReply { f with ack := none }).2) := by
  obtain ⟨a, seq, ack, request⟩ := f
  cases request with
  | none => rw [ownReply_idle t _ rfl, ownReply_idle t _ rfl, acknowledge_none]
  | some request =>
    cases hj : isJoin request with
    | false => rw [ownReply_request t _ request rfl hj, ownReply_request t _ request rfl hj, acknowledge_none]
    | true =>
      have hc : t.claim? a request = none := hclaim request rfl
      rw [ownReply_join t ⟨a, seq, ack, _⟩ request rfl hj hc, ownReply_join t ⟨a, seq, none, _⟩ request rfl hj hc, acknowledge_none]

theorem claim?_ownTag (t : Tables) (f : ReplyFrame) (request : List Byte)
    (h : ∀ tag st, joinTag request = some tag → t.station? f.source = some st → st.tag = tag) :
    t.claim? f.source request = none := by
  cases ht : joinTag request with
  | none => exact claim?_noTag t _ _ ht
  | some tag =>
    cases hs : t.station? f.source with
    | none => simp only [Tables.claim?, ht, hs]
    | some st => exact (claim?_other t _ _ tag st ht hs).trans (if_pos (h tag st ht hs))

/-- Settles O33: the two stages of a reply, then the acknowledgment by the oldest notice. -/
theorem acknowledgmentComesLast : Obligations.AcknowledgmentComesLast := by
  refine ⟨⟨exec_reply_next, fun f t htag => ?_, fun f request tag st t hr ht hs hne => ?_, fun f t => rfl⟩,
    fun a t => ⟨acknowledge_none t a, fun number => ⟨acknowledge_absent t a _, fun st hs =>
      ⟨acknowledge_empty t a number st hs, fun n rest hn => ⟨fun hne => ?_, fun heq => ⟨_, rfl, ?_, ?_⟩⟩⟩⟩⟩⟩
  · exact ownReply_acknowledges t f fun request hr => claim?_ownTag t f request fun tag st => htag request tag st hr
  · exact ownReply_claim t f request tag st hr ht hs hne
  · exact (acknowledge_oldest t a number st n rest hs hn).trans (if_neg hne)
  · intro h r d l reason deadline hc hl he ho hp
    subst heq
    exact ((acknowledge_oldest t a n.number st n rest hs hn).trans (if_pos rfl)).trans
      (afterAck_retires _ a n h r d l reason deadline hc ((validLease?_eq_some_iff t h l).mpr ⟨hl, he⟩) ho hp)
  · intro hno
    subst heq
    refine ((acknowledge_oldest t a n.number st n rest hs hn).trans (if_pos rfl)).trans (afterAck_keeps _ a n ?_)
    intro h r d l reason deadline hc hv
    obtain ⟨hl, he⟩ := (validLease?_eq_some_iff t h l).mp hv
    exact hno h r d l reason deadline hc hl he

end Sys2Proof.Machine
end

section
/-! SUPPORT. The request line: the poll schedule, the contents of a poll, the pins, and the events of an exchange with the
block's own microsecond (O44, O45). -/

namespace Sys2Proof.Machine

set_option Elab.async false

/-! ### The pins -/

theorem charBit_eq (b : Byte) (j : Nat) (h : j < 10) :
    charBit b j = if j = 0 then false else if j = 9 then true else b.getLsbD (j - 1) := by
  unfold charBit
  by_cases h9 : j = 9
  · rw [h9]; rfl
  · rw [if_pos (show j ≤ 8 by omega), if_neg h9]

/-- While a frame is sent RL_DE is asserted and RL_TX carries the bit in turn. -/
theorem sending_pins (s : State) (frame : List Byte) (left k j : Nat) (b : Byte)
    (hs : s.line.exchange.sending? = some (frame, left)) (hb : frame[k]? = some b) (hj : j < 10)
    (h : left + (10 * k + j) = 10 * frame.length) :
    s.rlDe = true ∧ s.rlTx = if j = 0 then false else if j = 9 then true else b.getLsbD (j - 1) := by
  refine ⟨by rw [State.rlDe, hs]; rfl, ?_⟩
  simp only [State.rlTx, hs]
  rw [lineLevel_eq frame left k j b hb hj h, charBit_eq b j hj]

theorem resting_pins (s : State) (hs : s.line.exchange.sending? = none) : s.rlDe = false ∧ s.rlTx = true := by
  refine ⟨by rw [State.rlDe, hs]; rfl, ?_⟩
  simp only [State.rlTx, hs]

theorem sending?_eq_none (x : Exchange) (hpoll : ∀ a frame w left, x ≠ .sendPoll a frame w left)
    (hresponse : ∀ frame left, x ≠ .sendResponse frame left) (hfinish : ∀ b left, x ≠ .finishChar b left) :
    x.sending? = none := by
  cases x with
  | sendPoll a frame w left => exact absurd rfl (hpoll a frame w left)
  | sendResponse frame left => exact absurd rfl (hresponse frame left)
  | finishChar b left => exact absurd rfl (hfinish b left)
  | gap | awaitReply | receiving | waitEngine => rfl

/-! ### The schedule -/

/-- A poll of the station is due in this round: it is eligible and above the last address (R140). -/
def Tables.pollDue (t : Tables) (c : Schedule) (a : Nat) : Prop :=
  1 ≤ a ∧ a ≤ 30 ∧ c.last < a ∧ ∃ st, t.station? a = some st ∧ (st.live = .joined ∨ c.round = 0)

theorem eligible_iff (t : Tables) (round : BitVec 2) (a : Nat) :
    t.eligible round a = true ↔ ∃ st, t.station? a = some st ∧ (st.live = .joined ∨ round = 0) := by
  have hlive : ∀ x : Liveness, x.isSilent = false ↔ x = .joined := fun x => by cases x <;> simp [Liveness.isSilent]
  simp only [Tables.eligible, Option.any_eq_true, Bool.or_eq_true, Bool.not_eq_true', hlive, beq_iff_eq]

theorem pollDue_iff (t : Tables) (c : Schedule) (a : Nat) :
    t.pollDue c a ↔ a ∈ addresses ∧ (decide (c.last < a) && t.eligible c.round a) = true := by
  unfold Tables.pollDue addresses
  rw [List.mem_range'_1, Bool.and_eq_true, decide_eq_true_eq, eligible_iff]
  exact ⟨fun ⟨h1, h30, hc⟩ => ⟨⟨h1, Nat.lt_succ_of_le h30⟩, hc⟩, fun ⟨⟨h1, h30⟩, hc⟩ => ⟨h1, Nat.le_of_lt_succ h30, hc⟩⟩

theorem nextEligible_eq_some (t : Tables) (c : Schedule) (a : Nat) (h : t.pollDue c a) (hleast : ∀ b, b < a → ¬ t.pollDue c b) :
    t.nextEligible c = some a := by
  have ha := (pollDue_iff t c a).mp h
  refine List.find?_range'_eq_some.mpr ⟨ha.2, ha.1, fun b h1 hb => ?_⟩
  rw [Bool.not_eq_true']
  refine Bool.not_eq_true _ ▸ fun hd => hleast b hb ((pollDue_iff t c b).mpr ⟨?_, hd⟩)
  rw [addresses, List.mem_range'_1]
  exact ⟨h1, Nat.lt_trans hb (List.mem_range'_1.mp ha.1).2⟩

theorem nextEligible_eq_none (t : Tables) (c : Schedule) (h : ∀ a, ¬ t.pollDue c a) : t.nextEligible c = none :=
  List.find?_eq_none.mpr fun a ha hd => h a ((pollDue_iff t c a).mpr ⟨ha, hd⟩)

theorem chooseIn_next (t : Tables) (rounds a : Nat) (c : Schedule) (h : t.nextEligible c = some a) :
    t.chooseIn (rounds + 1) c = (a, { c with last := a }) := by
  simp only [Tables.chooseIn, h]

theorem chooseIn_end (t : Tables) (rounds : Nat) (c : Schedule) (h : t.nextEligible c = none) :
    t.chooseIn (rounds + 1) c = if t.policy.joinEvery ≤ c.opens + 1 then (0, ⟨c.round + 1, 0, 0, c.openDue⟩)
      else t.chooseIn rounds ⟨c.round + 1, 0, c.opens + 1, c.openDue⟩ := by
  simp only [Tables.chooseIn, h]
  rfl

/-- JOIN_EVERY rounds from the count on are enough: a choice within more of them is the same. -/
theorem chooseIn_enough (t : Tables) (rounds : Nat) (c : Schedule) (h1 : 1 ≤ rounds)
    (h : t.policy.joinEvery ≤ c.opens + rounds) : t.chooseIn (rounds + 1) c = t.chooseIn rounds c := by
  induction rounds generalizing c with
  | zero => omega
  | succ rounds ih =>
    cases hn : t.nextEligible c with
    | some a => rw [chooseIn_next t _ a c hn, chooseIn_next t _ a c hn]
    | none =>
      rw [chooseIn_end t _ c hn, chooseIn_end t _ c hn]
      split
      · rfl
      · next hmore => exact ih _ (by omega) (by simp only; omega)

theorem choosePoll_open (t : Tables) (c : Schedule) (h : c.openDue = true) :
    t.choosePoll c = (0, { c with openDue := false }) :=
  if_pos h

theorem choosePoll_round (t : Tables) (c : Schedule) (h : c.openDue = false) :
    t.choosePoll c = t.chooseIn (t.policy.joinEvery + 1) c := by
  rw [Tables.choosePoll, h]
  rfl

/-- A choice that ends a round without an open poll is the next round's. -/
theorem choosePoll_nextRound (t : Tables) (c : Schedule) (h : c.openDue = false) (hn : t.nextEligible c = none)
    (hmore : c.opens + 1 < t.policy.joinEvery) :
    t.choosePoll c = t.choosePoll ⟨c.round + 1, 0, c.opens + 1, false⟩ := by
  rw [choosePoll_round t c h, choosePoll_round t _ rfl, chooseIn_end t _ c hn, if_neg (by omega), h]
  exact (chooseIn_enough t _ _ (by omega) (by simp only; omega)).symm

/-- The line when GAP ends: a poll of the chosen address is sent. -/
theorem exec_poll (s : State) (elapsed a : Nat) (c : Schedule) (hx : s.line.exchange = .gap elapsed)
    (hop : s.arbiter.station = none) (hc : s.te.choosePoll s.line.schedule = (a, c)) : exec .poll s = .next { s with
      line := ⟨.sendPoll a (s.te.pollBytes a) s.te.policy.replyWindow (10 * (s.te.pollBytes a).length), c⟩ } := by
  refine congrArg Host.Outcome.next ?_
  simp only [State.gapComplete, hx, hop, State.sendPoll, hc]
  rfl

theorem pollBytes_station (t : Tables) (a : Nat) (st : Station) (h : t.station? a = some st) :
    t.pollBytes a = pollFrame a st := by
  simp only [Tables.pollBytes, h]

/-- Settles O44: the contents of a poll by its oldest notice, the pins by the exchange state, the choice by the schedule. -/
theorem pollChosenBySchedule : Obligations.PollChosenBySchedule := by
  refine ⟨⟨rfl, fun a st => ⟨_, rfl, fun hn => by rw [hn], fun n rest hn => ?_⟩⟩, fun s => ⟨?_, fun b left j hx hj h => ?_,
    fun hpoll hresponse hfinish => ?_⟩, fun elapsed s hx hop => ⟨fun hopen => ?_, fun hopen => ⟨fun a hdue hleast st hst => ?_,
    fun hnone hend => ?_, fun hnone hmore => ?_⟩⟩⟩
  · rw [hn]
    obtain ⟨number, content⟩ := n
    cases content with
    | granted | warn => rfl
    | refused ticket reason => cases reason <;> rfl
    | ending h reason => cases reason <;> rfl
    | ended h reason => cases reason <;> rfl
  · intro frame left k b j hx hb hj h
    refine sending_pins s frame left k j b ?_ hb hj h
    rcases hx with ⟨a, w, hx⟩ | hx <;> rw [hx] <;> rfl
  · exact sending_pins s [b] left 0 j b (by rw [hx]; rfl) rfl hj (by simpa using h)
  · exact resting_pins s (sending?_eq_none _ hpoll hresponse hfinish)
  · exact exec_poll s elapsed 0 _ hx hop (choosePoll_open s.te _ hopen)
  · have hchoice := (choosePoll_round s.te _ hopen).trans
      (chooseIn_next s.te _ a _ (nextEligible_eq_some s.te s.line.schedule a hdue hleast))
    rw [exec_poll s elapsed a _ hx hop hchoice, pollBytes_station s.te a st hst]
  · have hchoice := (choosePoll_round s.te _ hopen).trans
      ((chooseIn_end s.te _ _ (nextEligible_eq_none s.te s.line.schedule hnone)).trans (if_pos hend))
    rw [hopen] at hchoice
    exact exec_poll s elapsed 0 _ hx hop hchoice
  · have hchoice := choosePoll_nextRound s.te _ hopen (nextEligible_eq_none s.te s.line.schedule hnone) hmore
    obtain ⟨a, c, hac⟩ : ∃ a c, s.te.choosePoll ⟨s.line.schedule.round + 1, 0, s.line.schedule.opens + 1, false⟩ = (a, c) :=
      ⟨_, _, rfl⟩
    exact (exec_poll s elapsed a c hx hop (hchoice.trans hac)).trans
      (exec_poll { s with line := ⟨.gap elapsed, ⟨s.line.schedule.round + 1, 0, s.line.schedule.opens + 1, false⟩⟩ }
        elapsed a c rfl hop hac).symm

/-! ### The events of an exchange -/

section
variable (s : State)

theorem pollSent_sent (a window left : Nat) (frame : List Byte) (h : s.line.exchange = .sendPoll a frame window left) :
    s.pollSent = s.setExchange (.awaitReply a window) := by
  simp only [State.pollSent, h]

theorem pollSent_other (h : ∀ a frame window left, s.line.exchange ≠ .sendPoll a frame window left) : s.pollSent = s := by
  unfold State.pollSent
  split
  · exact absurd ‹_› (h _ _ _ _)
  · rfl

theorem startBit_begins (a left : Nat) (h : s.line.exchange = .awaitReply a left) :
    s.startBit = s.setExchange (.receiving a) := by
  simp only [State.startBit, h]

theorem startBit_other (h : ∀ a left, s.line.exchange ≠ .awaitReply a left) : s.startBit = s := by
  unfold State.startBit
  split
  · exact absurd ‹_› (h _ _)
  · rfl

theorem windowExpiry_misses (a left : Nat) (h : s.line.exchange = .awaitReply a left) : s.windowExpiry = s.missed a := by
  simp only [State.windowExpiry, h]

theorem windowExpiry_other (h : ∀ a left, s.line.exchange ≠ .awaitReply a left) : s.windowExpiry = s := by
  unfold State.windowExpiry
  split
  · exact absurd ‹_› (h _ _)
  · rfl

theorem tooLong_misses (a : Nat) (h : s.line.exchange = .receiving a) : s.tooLong = s.missed a := by
  simp only [State.tooLong, h]

theorem tooLong_other (h : ∀ a, s.line.exchange ≠ .receiving a) : s.tooLong = s := by
  unfold State.tooLong
  split
  · exact absurd ‹_› (h _)
  · rfl

theorem frameEnd_misses (a : Nat) (chars : List RxChar) (h : s.line.exchange = .receiving a) (hv : validReply a chars = none) :
    s.frameEnd chars = s.missed a := by
  simp only [State.frameEnd, h, hv]

theorem frameEnd_hands (a : Nat) (chars : List RxChar) (f : ReplyFrame) (h : s.line.exchange = .receiving a)
    (hv : validReply a chars = some f) :
    s.frameEnd chars = (s.setExchange (.waitEngine a)).setStationOp (some (.reply f (a == 0))) := by
  simp only [State.frameEnd, h, hv]

theorem responseSent_sent (frame : List Byte) (left : Nat) (h : s.line.exchange = .sendResponse frame left) :
    s.responseSent = s.setExchange (.gap 0) := by
  simp only [State.responseSent, h]

theorem responseSent_other (h : ∀ frame left, s.line.exchange ≠ .sendResponse frame left) : s.responseSent = s := by
  unfold State.responseSent
  split
  · exact absurd ‹_› (h _ _)
  · rfl

theorem gapComplete_other (h : (∀ elapsed, s.line.exchange ≠ .gap elapsed) ∨ s.arbiter.station ≠ none) : s.gapComplete = s := by
  unfold State.gapComplete
  split
  · next hx hop => exact h.elim (fun h => absurd hx (h _)) (fun h => absurd hop h)
  · rfl

end

/-! ### The own microsecond -/

section
variable (s : State)

theorem tickTimers_early (h : s.usPhase < 999) : s.tickTimers = { s with usPhase := s.usPhase + 1 } :=
  if_neg (by omega)

theorem tickTimers_late (h : 999 ≤ s.usPhase) : s.tickTimers = { s with usPhase := 0 }.tickMillisecond :=
  if_pos (by omega)

/-- The timers touch the station entries, the waiting expiries and their own phase alone. -/
theorem tickTimers_eq : s.tickTimers = { s with
    usPhase := if s.usPhase < 999 then s.usPhase + 1 else 0
    te := { s.te with stations := s.tickTimers.te.stations }
    arbiter := { s.arbiter with expiries := s.tickTimers.arbiter.expiries } } := by
  by_cases h : s.usPhase < 999
  · rw [tickTimers_early s h, if_pos h]
  · rw [tickTimers_late s (Nat.le_of_not_lt h), if_neg h]
    rfl

theorem tickMs_eq (st : Station) : st.tickMs = { st with live := match st.live with
    | .joined => .joined
    | .silent ms => .silent (ms - 1) } := by
  obtain ⟨live, tag, quota, held, leaseCount, queued, misses, lastSeq, lastResponse, nextNotice, notices, overflow⟩ := st
  cases live <;> rfl

theorem mem_foldl_insertAddress (a : Nat) (as es : List Nat) :
    a ∈ as.foldl (fun es a => insertAddress a es) es ↔ a ∈ es ∨ a ∈ as := by
  induction as generalizing es with
  | nil => simp
  | cons b bs ih => rw [List.foldl_cons, ih, mem_insertAddress, List.mem_cons, or_comm (a := a = b), or_assoc]

/-- The timers that run out: those of the SILENT stations with 1 ms left. -/
theorem mem_addresses_runsOut (t : Tables) (a : Nat) :
    a ∈ addresses.filter t.runsOut ↔ 1 ≤ a ∧ a ≤ 30 ∧ ∃ st, t.station? a = some st ∧ st.live = .silent 1 := by
  rw [List.mem_filter, addresses, List.mem_range'_1]
  simp only [Tables.runsOut, Option.any_eq_true, beq_iff_eq]
  exact ⟨fun ⟨⟨h1, h30⟩, hst⟩ => ⟨h1, Nat.le_of_lt_succ h30, hst⟩, fun ⟨h1, h30, hst⟩ => ⟨⟨h1, Nat.lt_succ_of_le h30⟩, hst⟩⟩

theorem tickWatch_counts (h : s.trunk.tclkWatch < 999) :
    s.tickWatch = { s with trunk := { s.trunk with tclkWatch := s.trunk.tclkWatch + 1 } } :=
  (if_neg (show ¬ 1000 ≤ s.trunk.tclkWatch by omega)).trans (if_neg (show ¬ 1000 ≤ s.trunk.tclkWatch + 1 by omega))

theorem tickWatch_loses (h : s.trunk.tclkWatch = 999) : s.tickWatch = s.tclkLost :=
  (if_neg (show ¬ 1000 ≤ s.trunk.tclkWatch by omega)).trans (if_pos (show 1000 ≤ s.trunk.tclkWatch + 1 by omega))

theorem tickWatch_lost (h : 999 < s.trunk.tclkWatch) : s.tickWatch = s :=
  if_pos h

theorem tclkLost_line : s.tclkLost.line = s.line := by
  obtain ⟨te, arbiter, line, ⟨sync, tfsWasLow, watch⟩, beacon, port, usPhase, pending⟩ := s
  cases sync <;> rfl

theorem tickWatch_line : s.tickWatch.line = s.line := by
  unfold State.tickWatch
  split
  · rfl
  · split
    · exact tclkLost_line s
    · rfl

theorem tick_line : s.tickTimers.tickWatch.line = s.line := by
  rw [tickWatch_line, tickTimers_eq]

theorem tickLine_gap (elapsed : Nat) (h : s.line.exchange = .gap elapsed) : s.tickLine =
    if elapsed < 19 then s.setExchange (.gap (elapsed + 1)) else (s.setExchange (.gap 20)).gapComplete := by
  simp only [State.tickLine, h]
  by_cases h19 : elapsed < 19
  · rw [if_pos h19]
    exact if_neg (show ¬ 20 ≤ elapsed + 1 by omega)
  · rw [if_neg h19]
    exact if_pos (show 20 ≤ elapsed + 1 by omega)

theorem tickLine_sendPoll (a window left : Nat) (frame : List Byte) (h : s.line.exchange = .sendPoll a frame window left) :
    s.tickLine = if left ≤ 1 then s.pollSent else s.setExchange (.sendPoll a frame window (left - 1)) := by
  simp only [State.tickLine, h]

theorem tickLine_awaitReply (a left : Nat) (h : s.line.exchange = .awaitReply a left) :
    s.tickLine = if left ≤ 1 then s.windowExpiry else s.setExchange (.awaitReply a (left - 1)) := by
  simp only [State.tickLine, h]

theorem tickLine_receiving (a : Nat) (h : s.line.exchange = .receiving a) : s.tickLine = s := by
  simp only [State.tickLine, h]

theorem tickLine_waitEngine (a : Nat) (h : s.line.exchange = .waitEngine a) : s.tickLine = s := by
  simp only [State.tickLine, h]

theorem tickLine_sendResponse (frame : List Byte) (left : Nat) (h : s.line.exchange = .sendResponse frame left) :
    s.tickLine = if left ≤ 1 then s.responseSent else s.setExchange (.sendResponse frame (left - 1)) := by
  simp only [State.tickLine, h]

theorem tickLine_finishChar (b : Byte) (left : Nat) (h : s.line.exchange = .finishChar b left) :
    s.tickLine = s.setExchange (if left ≤ 1 then .gap 0 else .finishChar b (left - 1)) := by
  simp only [State.tickLine, h]

theorem step_tick (hp : s.pending = []) (hop : s.nextOperation? = none) :
    step s = .next s.tickTimers.tickWatch.tickLine := by
  simp only [step, hp, State.ownStep, hop, State.tick]

end

/-- Settles O45: each event at its exchange state and elsewhere, then the own microsecond in its three parts. -/
theorem exchangeEventsMoveTheLine : Obligations.ExchangeEventsMoveTheLine := by
  refine ⟨fun s => ?_, fun s hp hop => ?_⟩
  · refine ⟨fun a frame window left hx => congrArg Host.Outcome.next (pollSent_sent s a window left frame hx),
      fun a left hx => ⟨congrArg Host.Outcome.next (startBit_begins s a left hx),
        congrArg Host.Outcome.next (windowExpiry_misses s a left hx)⟩,
      fun a hx => ⟨congrArg Host.Outcome.next (tooLong_misses s a hx), fun chars =>
        ⟨fun hv => congrArg Host.Outcome.next (frameEnd_misses s a chars hx hv),
          fun f hv => congrArg Host.Outcome.next (frameEnd_hands s a chars f hx hv)⟩⟩,
      fun frame left hx => congrArg Host.Outcome.next (responseSent_sent s frame left hx),
      fun hx => ⟨congrArg Host.Outcome.next (startBit_other s hx), congrArg Host.Outcome.next (windowExpiry_other s hx)⟩,
      fun hx => ⟨congrArg Host.Outcome.next (tooLong_other s hx), fun chars =>
        congrArg Host.Outcome.next (frameEnd_other s chars hx)⟩,
      fun hx => congrArg Host.Outcome.next (pollSent_other s hx),
      fun hx => congrArg Host.Outcome.next (responseSent_other s hx),
      fun hx => congrArg Host.Outcome.next (gapComplete_other s hx)⟩
  · refine ⟨s.tickTimers.te.stations, s.tickTimers.arbiter.expiries, s.tickTimers, s.tickTimers.tickWatch, fun h => ?_,
      fun h => ⟨?_, fun a => ?_⟩, tickTimers_eq s, fun h => ?_, fun h => ?_, fun h => ?_, ?_⟩
    · rw [tickTimers_early s h]
      exact ⟨rfl, rfl⟩
    · rw [tickTimers_late s h]
      exact congrArg (fun f => s.te.stations.map (Option.map f)) (funext tickMs_eq)
    · rw [tickTimers_late s h]
      exact (mem_foldl_insertAddress a _ _).trans (or_congr_right (mem_addresses_runsOut s.te a))
    · have htrunk : s.tickTimers.trunk = s.trunk := by rw [tickTimers_eq]
      rw [tickWatch_counts _ (by rw [htrunk]; exact h), htrunk]
    · have htrunk : s.tickTimers.trunk = s.trunk := by rw [tickTimers_eq]
      rw [tickWatch_loses _ (by rw [htrunk]; exact h)]
      rfl
    · have htrunk : s.tickTimers.trunk = s.trunk := by rw [tickTimers_eq]
      exact tickWatch_lost _ (by rw [htrunk]; exact h)
    · rw [step_tick s hp hop]
      have hline : s.tickTimers.tickWatch.line.exchange = s.line.exchange := by rw [tick_line]
      cases hx : s.line.exchange with
      | gap elapsed =>
        refine (congrArg Host.Outcome.next (tickLine_gap _ elapsed (hline.trans hx))).trans ?_
        exact apply_ite Host.Outcome.next _ _ _
      | sendPoll a frame w left =>
        refine (congrArg Host.Outcome.next (tickLine_sendPoll _ a w left frame (hline.trans hx))).trans ?_
        exact apply_ite Host.Outcome.next _ _ _
      | awaitReply a left =>
        refine (congrArg Host.Outcome.next (tickLine_awaitReply _ a left (hline.trans hx))).trans ?_
        exact apply_ite Host.Outcome.next _ _ _
      | receiving a => exact congrArg Host.Outcome.next (tickLine_receiving _ a (hline.trans hx))
      | waitEngine a => exact congrArg Host.Outcome.next (tickLine_waitEngine _ a (hline.trans hx))
      | sendResponse frame left =>
        refine (congrArg Host.Outcome.next (tickLine_sendResponse _ frame left (hline.trans hx))).trans ?_
        exact apply_ite Host.Outcome.next _ _ _
      | finishChar b left => exact congrArg Host.Outcome.next (tickLine_finishChar _ b left (hline.trans hx))

end Sys2Proof.Machine
end

section
/-! SUPPORT. What a poll receives as a reply: the frame's own tests, then those of a reply (first half of O5). -/

namespace Sys2Proof.Machine

set_option Elab.async false

/-! ### The fields of received characters -/

/-- The byte of a received character, 00h where there is none. -/
def frameByte (chars : List RxChar) (k : Nat) : Byte := ((chars.map RxChar.data)[k]?).getD 0

/-- The body as the length byte cuts it out. -/
def frameBody (chars : List RxChar) : List Byte := ((chars.map RxChar.data).drop 5).take (frameByte chars 4).toNat

/-- The conditions that make a received frame corrupt (R132). -/
def frameCorrupt (chars : List RxChar) : Prop :=
  (∃ c ∈ chars, c.stopBit = false) ∨ (∃ c ∈ chars.tail, c.lateGap = true) ∨ chars.length < 7 ∨
    25 < (frameByte chars 4).toNat ∨ chars.length ≠ 5 + (frameByte chars 4).toNat + 2 ∨
    (chars.map RxChar.data).drop (5 + (frameByte chars 4).toNat) ≠
      crcBytes ((chars.map RxChar.data).take (5 + (frameByte chars 4).toNat))

/-- The conditions under which an intact frame is no reply to the poll (R92, R133). -/
def replyWrong (a : Nat) (chars : List RxChar) : Prop :=
  frameByte chars 2 ≠ 0x04 ∨ frameByte chars 0 ≠ 0 ∨
    ((frameByte chars 3).getLsbD 5 = true ∧ (frameByte chars 4).toNat = 0) ∨
    ((frameByte chars 3).getLsbD 4 = false ∧
      (if (frameByte chars 3).getLsbD 5 then 1 else 0) < (frameByte chars 4).toNat) ∨
    (if a = 0 then frameByte chars 1 = 0 ∨ 30 < (frameByte chars 1).toNat else (frameByte chars 1).toNat ≠ a)

/-- The reply that the bytes of a frame spell. -/
def spelledReply (chars : List RxChar) : ReplyFrame :=
  ⟨(frameByte chars 1).toNat, (frameByte chars 3).setWidth 4,
    if (frameByte chars 3).getLsbD 5 then (frameBody chars).head? else none,
    if (frameByte chars 3).getLsbD 4 then some ((frameBody chars).drop (if (frameByte chars 3).getLsbD 5 then 1 else 0))
    else none⟩

/-! ### Intact frames -/

theorem frame_of_five (bytes : List Byte) (h : 5 ≤ bytes.length) :
    ∃ d s k b len rest, bytes = d :: s :: k :: b :: len :: rest := by
  match bytes, h with
  | d :: s :: k :: b :: len :: rest, _ => exact ⟨d, s, k, b, len, rest, rfl⟩

theorem not_frameCorrupt_iff (chars : List RxChar) : ¬ frameCorrupt chars ↔
    (chars.all RxChar.stopBit && !chars.tail.any RxChar.lateGap) = true ∧ 7 ≤ chars.length ∧
      ((decide ((frameByte chars 4).toNat ≤ Config.bodyMax) &&
          (chars.map RxChar.data).length == 5 + (frameByte chars 4).toNat + 2 &&
        crcBytes ((chars.map RxChar.data).take (5 + (frameByte chars 4).toNat)) ==
          (chars.map RxChar.data).drop (5 + (frameByte chars 4).toNat)) = true) := by
  unfold frameCorrupt
  simp only [not_or, not_exists, not_and, Bool.not_eq_false, Bool.not_eq_true, ne_eq, not_not, not_lt, Bool.and_eq_true,
    List.all_eq_true, Bool.not_eq_true', List.any_eq_false, beq_iff_eq, List.length_map, Config.bodyMax]
  exact ⟨fun ⟨hstop, hgap, h7, h25, hlength, hcrc⟩ => ⟨⟨hstop, hgap⟩, h7, ⟨decide_eq_true h25, hlength⟩, hcrc.symm⟩,
    fun ⟨⟨hstop, hgap⟩, h7, ⟨h25, hlength⟩, hcrc⟩ => ⟨hstop, hgap, h7, of_decide_eq_true h25, hlength, hcrc.symm⟩⟩

theorem intactFrame_intact (chars : List RxChar) (h : ¬ frameCorrupt chars) : intactFrame chars =
    some ⟨frameByte chars 0, frameByte chars 1, frameByte chars 2, frameByte chars 3, frameBody chars⟩ := by
  obtain ⟨hline, h7, hframe⟩ := (not_frameCorrupt_iff chars).mp h
  obtain ⟨d, s, k, b, len, rest, hb⟩ := frame_of_five (chars.map RxChar.data) (by rw [List.length_map]; omega)
  have h4 : frameByte chars 4 = len := by rw [frameByte, hb]; rfl
  rw [h4] at hframe
  unfold intactFrame
  rw [if_pos hline]
  simp only [hb] at hframe ⊢
  rw [if_pos hframe]
  simp only [frameBody, frameByte, hb]
  rfl

theorem intactFrame_corrupt (chars : List RxChar) (h : frameCorrupt chars) : intactFrame chars = none := by
  dsimp only [intactFrame]
  split
  · next hline =>
    split
    · next d s k b len rest hb =>
      have h4 : frameByte chars 4 = len := by rw [frameByte, hb]; rfl
      refine if_neg fun hframe => (not_frameCorrupt_iff chars).mpr ⟨hline, ?_, by rw [h4]; exact hframe⟩ h
      simp only [Bool.and_eq_true, beq_iff_eq, List.length_map] at hframe
      omega
    · rfl
  · rfl

theorem frameBody_length (chars : List RxChar) (h : ¬ frameCorrupt chars) :
    (frameBody chars).length = (frameByte chars 4).toNat := by
  have hlength : chars.length = 5 + (frameByte chars 4).toNat + 2 := by
    by_contra hne
    exact h (.inr (.inr (.inr (.inr (.inl hne)))))
  rw [frameBody, List.length_take, List.length_drop, List.length_map]
  omega

/-! ### Replies -/

theorem replyOf_header (f : LineFrame) (h : f.kind ≠ 0x04 ∨ f.destination ≠ 0) : replyOf f = none := by
  refine if_neg ?_
  rw [Bool.and_eq_true, beq_iff_eq, beq_iff_eq]
  exact fun hc => h.elim (· hc.1) (· hc.2)

/-- A frame of kind REPLY to the controller: by the acknowledgment, the request and the body. -/
theorem replyOf_body (f : LineFrame) (hk : f.kind = 0x04) (hd : f.destination = 0) :
    ((f.byte3.getLsbD 5 = true ∧ f.body.length = 0) ∨
      (f.byte3.getLsbD 4 = false ∧ (if f.byte3.getLsbD 5 then 1 else 0) < f.body.length) → replyOf f = none) ∧
    (¬ (f.byte3.getLsbD 5 = true ∧ f.body.length = 0) →
      ¬ (f.byte3.getLsbD 4 = false ∧ (if f.byte3.getLsbD 5 then 1 else 0) < f.body.length) → replyOf f =
        some ⟨f.source.toNat, f.byte3.setWidth 4, if f.byte3.getLsbD 5 then f.body.head? else none,
          if f.byte3.getLsbD 4 then some (f.body.drop (if f.byte3.getLsbD 5 then 1 else 0)) else none⟩) := by
  obtain ⟨d, s, k, b, body⟩ := f
  subst hk hd
  simp only [replyOf]
  cases b.getLsbD 5 with
  | false =>
    cases b.getLsbD 4 <;> cases body <;> simp [kindReply]
  | true =>
    cases body with
    | nil => simp [kindReply]
    | cons x rest => cases b.getLsbD 4 <;> cases rest <;> simp [kindReply]

theorem validReply_none (a : Nat) (chars : List RxChar) (h : (intactFrame chars).bind replyOf = none) :
    validReply a chars = none := by
  simp only [validReply, h]

theorem validReply_some (a : Nat) (chars : List RxChar) (f : ReplyFrame) (h : (intactFrame chars).bind replyOf = some f) :
    validReply a chars = if a = 0 then (if isStation f.source then some f else none)
      else if f.source = a then some f else none := by
  simp only [validReply, h]

theorem source_station (n : Byte) : isStation n.toNat = true ↔ ¬ (n = 0 ∨ 30 < n.toNat) := by
  have hzero : n = 0 ↔ n.toNat = 0 := BitVec.toNat_eq.trans (by rfl)
  rw [isStation, within_iff, hzero, Config.stationCount]
  omega

/-- Of an intact frame the two tests of the reply are left: its header and body, and its source. -/
theorem validReply_intact (a : Nat) (chars : List RxChar) (h : ¬ frameCorrupt chars) :
    (replyWrong a chars → validReply a chars = none) ∧
      (¬ replyWrong a chars → validReply a chars = some (spelledReply chars)) := by
  have hintact := intactFrame_intact chars h
  by_cases hk : frameByte chars 2 = 0x04
  · by_cases hd : frameByte chars 0 = 0
    · obtain ⟨hbad, hgood⟩ := replyOf_body ⟨frameByte chars 0, frameByte chars 1, frameByte chars 2, frameByte chars 3,
        frameBody chars⟩ hk hd
      simp only [frameBody_length chars h] at hbad hgood
      by_cases hempty : (frameByte chars 3).getLsbD 5 = true ∧ (frameByte chars 4).toNat = 0
      · have hnone := validReply_none a chars (by rw [hintact]; exact hbad (.inl hempty))
        exact ⟨fun _ => hnone, fun hr => absurd (.inr (.inr (.inl hempty))) hr⟩
      · by_cases hextra : (frameByte chars 3).getLsbD 4 = false ∧
            (if (frameByte chars 3).getLsbD 5 then 1 else 0) < (frameByte chars 4).toNat
        · have hnone := validReply_none a chars (by rw [hintact]; exact hbad (.inr hextra))
          exact ⟨fun _ => hnone, fun hr => absurd (.inr (.inr (.inr (.inl hextra)))) hr⟩
        · have hsome := validReply_some a chars (spelledReply chars) (by rw [hintact]; exact hgood hempty hextra)
          have hwrong : replyWrong a chars ↔
              if a = 0 then frameByte chars 1 = 0 ∨ 30 < (frameByte chars 1).toNat else (frameByte chars 1).toNat ≠ a := by
            simp only [replyWrong, hk, hd, hempty, hextra, ne_eq, not_true_eq_false, false_or]
          have hsource : (spelledReply chars).source = (frameByte chars 1).toNat := rfl
          rw [hsome, hwrong, hsource]
          by_cases ha : a = 0
          · simp only [if_pos ha]
            have hstation := source_station (frameByte chars 1)
            exact ⟨fun hs => if_neg fun hok => hstation.mp hok hs, fun hs => if_pos (hstation.mpr hs)⟩
          · simp only [if_neg ha]
            exact ⟨fun hs => if_neg hs, fun hs => if_pos (not_not.mp hs)⟩
    · have hnone := validReply_none a chars (by rw [hintact]; exact replyOf_header _ (.inr hd))
      exact ⟨fun _ => hnone, fun hr => absurd (.inr (.inl hd)) hr⟩
  · have hnone := validReply_none a chars (by rw [hintact]; exact replyOf_header _ (.inl hk))
    exact ⟨fun _ => hnone, fun hr => absurd (.inl hk) hr⟩

theorem validReply_refuses (a : Nat) (chars : List RxChar) (h : frameCorrupt chars ∨ replyWrong a chars) :
    validReply a chars = none := by
  by_cases hc : frameCorrupt chars
  · exact validReply_none a chars (by rw [intactFrame_corrupt chars hc]; rfl)
  · exact (validReply_intact a chars hc).1 (h.resolve_left hc)

theorem validReply_takes (a : Nat) (chars : List RxChar) (hc : ¬ frameCorrupt chars) (hr : ¬ replyWrong a chars) :
    validReply a chars = some (spelledReply chars) :=
  (validReply_intact a chars hc).2 hr

/-! ### A frame sent without error -/

theorem cleanChars_data (bytes : List Byte) : (cleanChars bytes).map RxChar.data = bytes := by
  rw [cleanChars, List.map_map]
  exact List.map_id bytes

theorem byte_toNat_lt (n : Nat) (h : n < 256) : (byte n).toNat = n :=
  (BitVec.toNat_ofNat n 8).trans (Nat.mod_eq_of_lt h)

/-- The header bytes and the body of a frame sent whole. -/
theorem lineFrame_fields (d s k b : Byte) (body : List Byte) (h : body.length ≤ 25) :
    frameByte (cleanChars (lineFrame d s k b body)) 0 = d ∧ frameByte (cleanChars (lineFrame d s k b body)) 1 = s ∧
      frameByte (cleanChars (lineFrame d s k b body)) 2 = k ∧ frameByte (cleanChars (lineFrame d s k b body)) 3 = b ∧
      (frameByte (cleanChars (lineFrame d s k b body)) 4).toNat = body.length ∧
      frameBody (cleanChars (lineFrame d s k b body)) = body := by
  have h4 : (frameByte (cleanChars (lineFrame d s k b body)) 4).toNat = body.length := by
    rw [frameByte, cleanChars_data]
    exact byte_toNat_lt body.length (by omega)
  refine ⟨?_, ?_, ?_, ?_, h4, ?_⟩
  · rw [frameByte, cleanChars_data]; rfl
  · rw [frameByte, cleanChars_data]; rfl
  · rw [frameByte, cleanChars_data]; rfl
  · rw [frameByte, cleanChars_data]; rfl
  · rw [frameBody, h4, cleanChars_data]
    exact List.take_left' rfl

theorem crcBytes_length (bytes : List Byte) : (crcBytes bytes).length = 2 := rfl

theorem lineFrame_intact (d s k b : Byte) (body : List Byte) (h : body.length ≤ 25) :
    ¬ frameCorrupt (cleanChars (lineFrame d s k b body)) := by
  obtain ⟨-, -, -, -, h4, -⟩ := lineFrame_fields d s k b body h
  have hlength : (cleanChars (lineFrame d s k b body)).length = 5 + body.length + 2 := by
    rw [cleanChars, List.length_map, lineFrame, withCrc, List.length_append, List.length_append, crcBytes_length]
    simp
  have hheader : ([d, s, k, b, byte body.length] ++ body).length = 5 + body.length := by
    simp
    omega
  unfold frameCorrupt
  rw [h4, hlength, cleanChars_data]
  rintro (⟨c, hc, hstop⟩ | ⟨c, hc, hgap⟩ | h7 | h25 | hne | hcrc)
  · obtain ⟨x, -, rfl⟩ := List.mem_map.mp hc
    cases hstop
  · obtain ⟨x, -, rfl⟩ := List.mem_map.mp (List.mem_of_mem_tail hc)
    cases hgap
  · omega
  · omega
  · exact hne rfl
  · exact hcrc ((List.drop_left' hheader).trans (congrArg crcBytes (List.take_left' hheader).symm))

theorem byte3_fields (seq : BitVec 4) (request ack : Bool) :
    (seq.setWidth 8 ||| (if request then 0x10 else 0) ||| (if ack then 0x20 else 0) : Byte).getLsbD 4 = request ∧
    (seq.setWidth 8 ||| (if request then 0x10 else 0) ||| (if ack then 0x20 else 0) : Byte).getLsbD 5 = ack ∧
    (seq.setWidth 8 ||| (if request then 0x10 else 0) ||| (if ack then 0x20 else 0) : Byte).setWidth 4 = seq := by
  revert seq request ack
  decide

/-- A reply's frame spells the reply, in answer to a poll of its source and to an open poll. -/
theorem validReply_bytes (f : ReplyFrame) (h1 : 1 ≤ f.source) (h30 : f.source ≤ 30) (hlength : f.body.length ≤ 25) :
    validReply f.source (cleanChars f.bytes) = some f ∧ validReply 0 (cleanChars f.bytes) = some f := by
  have hintact := lineFrame_intact 0 (byte f.source) kindReply f.byte3 f.body hlength
  obtain ⟨hd, hs, hk, hb, hl, hbody⟩ := lineFrame_fields 0 (byte f.source) kindReply f.byte3 f.body hlength
  obtain ⟨hrequest, hack, hseq⟩ := byte3_fields f.seq f.request.isSome f.ack.isSome
  have hsource : (byte f.source).toNat = f.source := byte_toNat_lt f.source (by omega)
  have hspelled : spelledReply (cleanChars f.bytes) = f := by
    unfold spelledReply ReplyFrame.bytes
    rw [hs, hb, hbody, hsource, ReplyFrame.byte3, hrequest, hack, hseq, ReplyFrame.body]
    obtain ⟨source, seq, ack, request⟩ := f
    cases ack <;> cases request <;> rfl
  have hright : ∀ a, (a = f.source ∨ a = 0) → ¬ replyWrong a (cleanChars f.bytes) := by
    intro a ha
    unfold replyWrong ReplyFrame.bytes
    rw [hs, hb, hk, hd, hl, hsource, ReplyFrame.byte3, hrequest, hack]
    rintro (hk | hd | ⟨hempty, hzero⟩ | ⟨hno, hextra⟩ | hstation)
    · exact hk rfl
    · exact hd rfl
    · rw [ReplyFrame.body, List.length_append] at hzero
      cases hf : f.ack with
      | none => rw [hf] at hempty; cases hempty
      | some x => rw [hf] at hzero; simp at hzero
    · rw [ReplyFrame.body, List.length_append] at hextra
      cases hf : f.request with
      | none => rw [hf] at hextra; cases hg : f.ack <;> simp [hg] at hextra
      | some x => rw [hf] at hno; cases hno
    · split at hstation
      · have hzero := hstation.resolve_right (by omega)
        rw [hzero] at hsource
        exact absurd (hsource.symm.trans rfl) (Nat.ne_of_gt h1)
      · next hne => exact hstation (ha.resolve_right hne).symm
  have htakes : ∀ a, (a = f.source ∨ a = 0) → validReply a (cleanChars f.bytes) = some f := fun a ha =>
    (validReply_takes a (cleanChars f.bytes) hintact (hright a ha)).trans (congrArg some hspelled)
  exact ⟨htakes _ (.inl rfl), htakes 0 (.inr rfl)⟩

theorem replyFits_bounds (h : ReplyHead) (n : Nat) (hf : replyFits h n = true) :
    1 ≤ h.source.toNat ∧ h.source.toNat ≤ 30 ∧ h.ack.toList.length + n ≤ 25 := by
  simp only [replyFits, Bool.and_eq_true, decide_eq_true_eq, Config.stationCount, Config.bodyMax] at hf
  obtain ⟨⟨h1, h30⟩, hl⟩ := hf
  refine ⟨h1, of_decide_eq_true h30, ?_⟩
  cases ha : h.ack <;> simp [ha] at hl ⊢ <;> omega

/-- A well-formed row's reply names a station address, and its body fits the frame. -/
theorem wellFormed_reply (i : Instr) (f : ReplyFrame) (hw : i.wellFormed = true) (hf : replyFrame? i = some f) :
    1 ≤ f.source ∧ f.source ≤ 30 ∧ f.body.length ≤ 25 := by
  have hhead : ∀ (h : ReplyHead) (request : Option (List Byte)) (n : Nat), some (headFrame h request) = some f →
      (request.getD []).length = n → replyFits h n = true → 1 ≤ f.source ∧ f.source ≤ 30 ∧ f.body.length ≤ 25 := by
    intro h request n hframe hn hfits
    subst hn
    obtain rfl := Option.some.inj hframe
    obtain ⟨h1, h30, hl⟩ := replyFits_bounds h _ hfits
    exact ⟨h1, h30, by rw [ReplyFrame.body, List.length_append]; exact hl⟩
  cases i with
  | join h fields | leave h fields | grant h fields | renew h fields | release h fields | attach h fields | detach h fields
  | querySlot h fields | queryLease h fields | listMine h fields | cancel h fields =>
    exact hhead h _ _ hf rfl hw
  | idle h => exact hhead h none _ hf rfl hw
  | unknownKindRequest h body =>
    rw [replyFrame?] at hf
    split at hf
    · cases hf
    · exact hhead h (some body) _ hf rfl (Bool.and_eq_true _ _ ▸ hw).1
  | _ => cases hf

end Sys2Proof.Machine
end

section
/-! SUPPORT. Reception from the levels of RL_RX: characters, frames, and the states in which they are taken (second half of
O5). A frame under reception and one that is passed over follow the line alike; the lemmas speak of both at once. -/

namespace Sys2Proof.Machine

set_option Elab.async false

/-! ### A frame followed over several periods -/

/-- A frame on the line at some point: with its characters so far when it is received, or passed over. -/
def Reception.following : Option (List RxChar) → Receiver → Reception
  | some chars, receiver => .frame chars receiver
  | none, receiver => .passed receiver

/-- Characters are taken in every period, when the frame is one that is received. -/
def heardThrough (m : Option (List RxChar)) (periods : List (Exchange × Bool)) : Prop :=
  m.isSome = true → ∀ p ∈ periods, p.1.listens = true

theorem heardThrough_none (periods : List (Exchange × Bool)) : heardThrough none periods := by
  rintro ⟨⟩

theorem heardThrough_append (m : Option (List RxChar)) (ps qs : List (Exchange × Bool)) :
    heardThrough m (ps ++ qs) ↔ heardThrough m ps ∧ heardThrough m qs := by
  simp only [heardThrough, List.forall_mem_append]
  exact forall_and

/-- The characters of a frame with more behind them. -/
def withChars (m : Option (List RxChar)) (more : List RxChar) : Option (List RxChar) := m.map (· ++ more)

theorem withChars_nil (m : Option (List RxChar)) : withChars m [] = m := by
  cases m with
  | none => rfl
  | some chars => exact congrArg some (List.append_nil chars)

theorem withChars_withChars (m : Option (List RxChar)) (xs ys : List RxChar) :
    withChars (withChars m xs) ys = withChars m (xs ++ ys) := by
  cases m with
  | none => rfl
  | some chars => exact congrArg some (List.append_assoc chars xs ys)

theorem heardThrough_withChars (m : Option (List RxChar)) (xs : List RxChar) (ps : List (Exchange × Bool)) :
    heardThrough (withChars m xs) ps ↔ heardThrough m ps := by
  rw [heardThrough, heardThrough, withChars, Option.isSome_map]

theorem run_cons (r : Reception) (p : Exchange × Bool) (periods : List (Exchange × Bool)) : r.run (p :: periods) =
    (((r.sample p.1 p.2).1.run periods).1, (r.sample p.1 p.2).2.toList ++ ((r.sample p.1 p.2).1.run periods).2) := rfl

/-- A period that neither completes the silence nor begins a 33rd character. -/
theorem sample_following (m : Option (List RxChar)) (receiver receiver' : Receiver) (got : Option RxChar) (p : Exchange × Bool)
    (hs : receiver.sample p.2 = (receiver', got)) (hm : heardThrough m [p]) (hsilent : receiver'.isSilent = false)
    (hroom : receiver'.hasStarted = true → ∀ chars, m = some chars → chars.length < 32) :
    (Reception.following m receiver).sample p.1 p.2 = (.following (withChars m got.toList) receiver', none) := by
  cases m with
  | none => simp [Reception.following, Reception.sample, Receiver.pass, hs, hsilent, withChars]
  | some chars =>
    have hl : p.1.listens = true := hm rfl p (List.mem_singleton_self p)
    have hnot : (receiver'.hasStarted && decide (frameMax ≤ chars.length)) = false := by
      cases hstart : receiver'.hasStarted with
      | false => rfl
      | true =>
        have hlt := hroom hstart chars rfl
        exact decide_eq_false (show ¬ 32 ≤ chars.length by omega)
    simp [Reception.following, Reception.sample, Receiver.receive, hl, hs, hsilent, hnot, withChars]

/-- The same period, and those after it. -/
theorem run_following (m : Option (List RxChar)) (receiver receiver' : Receiver) (got : Option RxChar) (p : Exchange × Bool)
    (periods : List (Exchange × Bool)) (hs : receiver.sample p.2 = (receiver', got)) (hm : heardThrough m (p :: periods))
    (hsilent : receiver'.isSilent = false)
    (hroom : receiver'.hasStarted = true → ∀ chars, m = some chars → chars.length < 32) :
    (Reception.following m receiver).run (p :: periods) =
      (Reception.following (withChars m got.toList) receiver').run periods := by
  have hp : heardThrough m [p] := fun h q hq => hm h q (by rw [List.mem_singleton.mp hq]; exact List.mem_cons_self)
  rw [run_cons, sample_following m receiver receiver' got p hs hp hsilent hroom]
  rfl

/-! ### Silence -/

theorem sample_mark (was : Bool) (since : Nat) :
    (Receiver.quiet was since).sample true = (.quiet true (since + 1), none) := by
  cases was <;> rfl

theorem quiet_notSilent (was : Bool) (since : Nat) (h : since < 487) : (Receiver.quiet was since).isSilent = false :=
  decide_eq_false (show ¬ 487 ≤ since by omega)

/-- Mark, or space going on, for less than the silence. -/
theorem run_quiet (m : Option (List RxChar)) (level : Bool) (periods : List (Exchange × Bool)) (was : Bool) (since : Nat)
    (hl : periods.map Prod.snd = List.replicate periods.length level) (hw : level = true ∨ was = false)
    (hm : heardThrough m periods) (hn : since + periods.length < 487) : ∃ was', (was' = level ∨ periods = [] ∧ was' = was) ∧
      (Reception.following m (.quiet was since)).run periods =
        (.following m (.quiet was' (since + periods.length)), []) := by
  induction periods generalizing was since with
  | nil => exact ⟨was, .inr ⟨rfl, rfl⟩, rfl⟩
  | cons p periods ih =>
    obtain ⟨x, level'⟩ := p
    rw [List.map_cons, List.length_cons, List.replicate_succ] at hl
    obtain ⟨hp, hl⟩ := List.cons.inj hl
    obtain rfl : level' = level := hp
    rw [List.length_cons] at hn
    have hs : (Receiver.quiet was since).sample level' = (.quiet level' (since + 1), none) := by
      cases level' with
      | true => exact sample_mark was since
      | false => rw [hw.resolve_left (by nofun)]; rfl
    have hrest := (heardThrough_append m [(x, level')] periods).mp hm
    obtain ⟨was', hw', hrun⟩ := ih level' (since + 1) hl (by cases level' <;> simp) hrest.2 (by omega)
    refine ⟨was', .inl (hw'.elim id And.right), ?_⟩
    rw [run_following m _ _ none (x, level') periods hs hm (quiet_notSilent _ _ (by omega)) nofun, Option.toList_none,
      withChars_nil, hrun, List.length_cons, Nat.add_assoc, Nat.add_comm 1]

/-! ### A character -/

/-- The byte after some periods inside a character: each middle of a data bit takes the level there. -/
def sampledData (period : Nat) : List Bool → Byte → Byte
  | [], data => data
  | level :: levels, data =>
    sampledData (period + 1) levels (if isDataMiddle period then takeDataBit data level else data)

/-- The levels at the middles are taken in their order. -/
theorem sampledData_eq (period : Nat) (levels : List Bool) (data : Byte) : sampledData period levels data =
    ((List.range levels.length).filter fun i => isDataMiddle (period + i)).foldl
      (fun d i => takeDataBit d ((levels[i]?).getD false)) data := by
  induction levels generalizing period data with
  | nil => rfl
  | cons level levels ih =>
    rw [sampledData, ih, List.length_cons, List.range_succ_eq_map, List.filter_cons, List.filter_map]
    have hshift : (fun i => isDataMiddle (period + i)) ∘ Nat.succ = fun i => isDataMiddle (period + 1 + i) := by
      funext i
      exact congrArg isDataMiddle (by omega)
    rw [hshift]
    by_cases hd : isDataMiddle period = true
    · rw [if_pos hd, if_pos (show isDataMiddle (period + 0) = true from hd), List.foldl_cons, List.foldl_map]
      rfl
    · rw [if_neg hd, if_neg (show ¬ isDataMiddle (period + 0) = true from hd), List.foldl_map]
      rfl

theorem dataMiddles : ((List.range 151).filter fun i => isDataMiddle (1 + i)) = (List.range 8).map fun k => 16 * (k + 1) + 7 := by
  decide +kernel

/-- Eight bits at their middles are the byte. -/
theorem sampledData_byte (b : Byte) (levels : List Bool) (hl : levels.length = 151)
    (hb : ∀ k, k < 8 → levels[16 * (k + 1) + 7]? = some (b.getLsbD k)) : sampledData 1 levels 0 = b := by
  rw [sampledData_eq, hl, dataMiddles, List.foldl_map]
  calc (List.range 8).foldl (fun d k => takeDataBit d ((levels[16 * (k + 1) + 7]?).getD false)) 0
      = (List.range 8).foldl (fun d k => takeDataBit d (b.getLsbD k)) 0 :=
        List.foldl_ext _ _ _ fun d k hk => by rw [hb k (List.mem_range.mp hk)]; rfl
    _ = ((List.range 8).map b.getLsbD).foldl takeDataBit 0 := List.foldl_map.symm
    _ = b := foldl_takeDataBit b

/-- The periods of a character before the middle of its stop bit. -/
theorem run_inChar (m : Option (List RxChar)) (late : Bool) (periods : List (Exchange × Bool)) (period : Nat) (data : Byte)
    (h1 : 1 ≤ period) (hn : period + periods.length ≤ 152) (hm : heardThrough m periods) :
    (Reception.following m (.inChar late period data)).run periods =
      (.following m (.inChar late (period + periods.length) (sampledData period (periods.map Prod.snd) data)), []) := by
  induction periods generalizing period data with
  | nil => rfl
  | cons p periods ih =>
    rw [List.length_cons] at hn
    have hs := sample_inChar late p.2 period data (show period ≠ 152 by omega)
    have hrest := (heardThrough_append m [p] periods).mp hm
    have hstarted : (Receiver.inChar late (period + 1) (if isDataMiddle period then takeDataBit data p.2 else data)).hasStarted ≠
        true := by
      simp only [Receiver.hasStarted, beq_iff_eq, ne_eq]
      omega
    rw [run_following m _ _ none p periods hs hm rfl (fun h => absurd h hstarted), Option.toList_none, withChars_nil,
      ih (period + 1) _ (by omega) (by omega) hrest.2, List.length_cons, Nat.add_assoc, Nat.add_comm 1]
    rfl

/-- What follows a start bit: the other 152 periods up to the middle of the stop bit complete the character. -/
theorem run_character (m : Option (List RxChar)) (late : Bool) (b : Byte) (stop : Bool) (periods : List (Exchange × Bool))
    (hl : periods.length = 152) (hb : ∀ k, k < 8 → (periods.map Prod.snd)[16 * (k + 1) + 7]? = some (b.getLsbD k))
    (hstop : (periods.map Prod.snd)[151]? = some stop) (hm : heardThrough m periods) :
    (Reception.following m (.inChar late 1 0)).run periods =
      (.following (withChars m [⟨b, stop, late⟩]) (.quiet stop 0), []) := by
  obtain ⟨bits, last, rfl⟩ : ∃ bits last, periods = bits ++ [last] :=
    ⟨periods.dropLast, _, (List.dropLast_append_getLast (List.ne_nil_of_length_eq_add_one hl)).symm⟩
  have hbits : bits.length = 151 := by simpa using hl
  obtain ⟨hmbits, hmlast⟩ := (heardThrough_append m bits [last]).mp hm
  have hlast : last.2 = stop := by
    rw [List.map_append, List.getElem?_append_right (by rw [List.length_map]; omega), List.length_map, hbits] at hstop
    exact Option.some.inj hstop
  have hdata : sampledData 1 (bits.map Prod.snd) 0 = b := by
    refine sampledData_byte b _ (by rw [List.length_map, hbits]) fun k hk => ?_
    rw [← hb k hk, List.map_append, List.getElem?_append_left (by rw [List.length_map]; omega)]
  have hs := sample_stopBit late last.2 b
  rw [run_append, run_inChar m late bits 1 0 (Nat.le_refl 1) (by omega) hmbits, hdata, hbits]
  rw [show 1 + 151 = middleOf 9 from rfl, run_following m _ _ _ last [] hs hmlast rfl nofun, hlast]
  rfl

/-- A start bit while a frame is followed (R130, R131). -/
theorem run_start (m : Option (List RxChar)) (since : Nat) (x : Exchange) (periods : List (Exchange × Bool))
    (hm : heardThrough m ((x, false) :: periods)) (hroom : ∀ chars, m = some chars → chars.length < 32) :
    (Reception.following m (.quiet true since)).run ((x, false) :: periods) =
      (Reception.following m (.inChar (decide (247 ≤ since)) 1 0)).run periods := by
  rw [run_following m _ _ none (x, false) periods (sample_start since) hm rfl (fun _ => hroom), Option.toList_none,
    withChars_nil]
  rfl

/-- The first start bit of a frame: it is received in AWAIT_REPLY alone. -/
theorem run_firstStart (x : Exchange) (periods : List (Exchange × Bool)) :
    (x.awaits = true → (Reception.waiting true).run ((x, false) :: periods) =
      (((Reception.following (some []) (.inChar false 1 0)).run periods).1,
        .replyStart :: ((Reception.following (some []) (.inChar false 1 0)).run periods).2)) ∧
    (x.awaits = false → (Reception.waiting true).run ((x, false) :: periods) =
      (Reception.following none (.inChar false 1 0)).run periods) := by
  refine ⟨fun h => ?_, fun h => ?_⟩ <;> rw [run_cons] <;> simp only [Reception.sample, h] <;> rfl

theorem run_waiting (periods : List (Exchange × Bool)) (hl : periods.map Prod.snd = List.replicate periods.length true) :
    (Reception.waiting true).run periods = (.waiting true, []) := by
  induction periods with
  | nil => rfl
  | cons p periods ih =>
    obtain ⟨x, level⟩ := p
    rw [List.map_cons, List.length_cons, List.replicate_succ] at hl
    obtain ⟨hp, hrest⟩ := List.cons.inj hl
    obtain rfl : level = true := hp
    rw [run_cons]
    simp only [Reception.sample, Bool.not_true, Bool.and_false, Bool.false_eq_true, ↓reduceIte, ih hrest]
    rfl

/-! ### The waveform of a character -/

/-- The levels of a character after its first period, up to the middle of its stop bit. -/
def charBody (b : Byte) (stop : Bool) : List Bool :=
  List.replicate 15 false ++ (List.range 8).flatMap (fun k => List.replicate 16 (b.getLsbD k)) ++ List.replicate 9 stop

/-- A gap of mark, a start bit, eight data bits and a stop bit, 16 periods each. -/
def charWave (x : Nat × Byte × Bool) : List Bool :=
  List.replicate x.1 true ++ List.replicate 16 false ++
    (List.range 8).flatMap (fun k => List.replicate 16 (x.2.1.getLsbD k)) ++ List.replicate 16 x.2.2

/-- A character behind the first as it is received. -/
def laterChar (x : Nat × Byte × Bool) : RxChar := ⟨x.2.1, x.2.2, decide (240 ≤ x.1)⟩

theorem wave_parts (gap start body stop stop1 stop2 rest : List Bool) (hstart : start = false :: rest)
    (hstop : stop = stop1 ++ stop2) :
    gap ++ start ++ body ++ stop = gap ++ (false :: (rest ++ body ++ stop1 ++ stop2)) := by
  subst hstart hstop
  simp only [List.append_assoc, List.cons_append]

theorem charWave_eq (x : Nat × Byte × Bool) : charWave x =
    List.replicate x.1 true ++ (false :: (charBody x.2.1 x.2.2 ++ List.replicate 7 x.2.2)) :=
  wave_parts _ _ _ _ _ _ _ List.replicate_succ (List.replicate_append_replicate (n := 9) (m := 7)).symm

theorem charBody_length (b : Byte) (stop : Bool) : (charBody b stop).length = 152 := by
  simp [charBody]

theorem charBody_bit (b : Byte) (stop : Bool) (k : Nat) (hk : k < 8) :
    (charBody b stop)[16 * (k + 1) + 7]? = some (b.getLsbD k) := by
  interval_cases k <;> rfl

theorem charBody_stop (b : Byte) (stop : Bool) : (charBody b stop)[151]? = some stop := rfl

/-- After its start bit a character of the waveform is received, and the rest of its stop bit goes by. -/
theorem run_charBody (m : Option (List RxChar)) (late : Bool) (b : Byte) (stop : Bool) (periods : List (Exchange × Bool))
    (hl : periods.map Prod.snd = charBody b stop ++ List.replicate 7 stop) (hm : heardThrough m periods) :
    (Reception.following m (.inChar late 1 0)).run periods =
      (.following (withChars m [⟨b, stop, late⟩]) (.quiet stop 7), []) := by
  obtain ⟨body, rest, rfl, hbody, hrest⟩ := List.map_eq_append_iff.mp hl
  obtain ⟨hmbody, hmrest⟩ := (heardThrough_append m body rest).mp hm
  have hlength : rest.length = 7 := by rw [← List.length_map (f := Prod.snd), hrest, List.length_replicate]
  obtain ⟨was', hwas, hquiet⟩ := run_quiet (withChars m [⟨b, stop, late⟩]) stop rest stop 0 (by rw [hrest, hlength])
    (by cases stop <;> simp) ((heardThrough_withChars m _ rest).mpr hmrest) (by omega)
  have hsame : was' = stop := hwas.elim id And.right
  rw [run_append, run_character m late b stop body (by rw [← List.length_map (f := Prod.snd), hbody, charBody_length])
    (fun k hk => by rw [hbody]; exact charBody_bit b stop k hk) (by rw [hbody]; exact charBody_stop b stop) hmbody, hquiet, hsame, hlength]
  rfl

/-- One character of the waveform, its gap of mark before it. -/
theorem run_charWave (m : Option (List RxChar)) (was : Bool) (x : Nat × Byte × Bool) (periods : List (Exchange × Bool))
    (hl : periods.map Prod.snd = charWave x) (hw : was = true ∨ 1 ≤ x.1) (hgap : x.1 < 480) (hm : heardThrough m periods)
    (hroom : ∀ chars, m = some chars → chars.length < 32) :
    (Reception.following m (.quiet was 7)).run periods = (.following (withChars m [laterChar x]) (.quiet x.2.2 7), []) := by
  rw [charWave_eq] at hl
  obtain ⟨marks, char, rfl, hmarks, hchar⟩ := List.map_eq_append_iff.mp hl
  obtain ⟨⟨start, level⟩, rest, rfl, hstart, hrest⟩ := List.map_eq_cons_iff.mp hchar
  obtain rfl : level = false := hstart
  obtain ⟨hmmarks, hmchar⟩ := (heardThrough_append m marks _).mp hm
  obtain ⟨-, hmrest⟩ := (heardThrough_append m [(start, false)] rest).mp hmchar
  have hlength : marks.length = x.1 := by rw [← List.length_map (f := Prod.snd), hmarks, List.length_replicate]
  obtain ⟨was', hwas, hquiet⟩ := run_quiet m true marks was 7 (by rw [hmarks, hlength]) (.inl rfl) hmmarks (by omega)
  have hmark : was' = true := hwas.elim id fun ⟨hnone, hsame⟩ => hsame.trans (hw.resolve_right (by rw [← hlength, hnone]; nofun))
  have hlate : decide (247 ≤ 7 + marks.length) = decide (240 ≤ x.1) := decide_eq_decide.mpr (by omega)
  rw [run_append, hquiet, hmark]
  dsimp only
  rw [run_start m _ start rest hmchar hroom, run_charBody m _ x.2.1 x.2.2 rest hrest hmrest, hlate]
  rfl

/-- The characters behind one of which the stop bit has gone by. -/
theorem run_charWaves (cs : List (Nat × Byte × Bool)) (x : Nat × Byte × Bool) (m : Option (List RxChar))
    (periods : List (Exchange × Bool)) (hl : periods.map Prod.snd = cs.flatMap charWave)
    (hchain : (x :: cs).IsChain fun x y => x.2.2 = true ∨ 1 ≤ y.1) (hgaps : ∀ y ∈ cs, y.1 < 480)
    (hm : heardThrough m periods) (hroom : ∀ chars, m = some chars → chars.length + cs.length ≤ 32) :
    ∃ z, (x :: cs).getLast? = some z ∧ (Reception.following m (.quiet x.2.2 7)).run periods =
      (.following (withChars m (cs.map laterChar)) (.quiet z.2.2 7), []) := by
  induction cs generalizing x m periods with
  | nil =>
    obtain rfl := List.map_eq_nil_iff.mp hl
    exact ⟨x, rfl, by rw [List.map_nil, withChars_nil]; rfl⟩
  | cons y ys ih =>
    obtain ⟨first, rest, rfl, hfirst, hrest⟩ := List.map_eq_append_iff.mp (hl.trans List.flatMap_cons)
    obtain ⟨hmfirst, hmrest⟩ := (heardThrough_append m first rest).mp hm
    obtain ⟨hxy, hys⟩ := List.isChain_cons_cons.mp hchain
    have hwave := run_charWave m x.2.2 y first hfirst hxy (hgaps y List.mem_cons_self) hmfirst fun chars hc => by
      have := hroom chars hc
      rw [List.length_cons] at this
      omega
    obtain ⟨z, hz, hrun⟩ := ih y (withChars m [laterChar y]) rest hrest hys (fun w hw => hgaps w (List.mem_cons_of_mem y hw))
      ((heardThrough_withChars m _ rest).mpr hmrest) fun chars hc => by
        obtain ⟨chars', hc', rfl⟩ := Option.map_eq_some_iff.mp hc
        have := hroom chars' hc'
        rw [List.length_cons] at this
        rw [List.length_append, List.length_singleton]
        omega
    refine ⟨z, by rw [List.getLast?_cons_cons, hz], ?_⟩
    rw [run_append, hwave, hrun, withChars_withChars]
    rfl

/-! ### The end of a frame -/

/-- The last of 30 µs of silence, after a frame that is received and after one that is not. -/
theorem run_silence (m : Option (List RxChar)) (was : Bool) (periods : List (Exchange × Bool))
    (hl : periods.map Prod.snd = List.replicate 480 true) (hm : heardThrough m periods) :
    (Reception.following m (.quiet was 7)).run periods =
      (.waiting true, (m.map Instr.frameEnd).toList) := by
  rw [show List.replicate 480 true = List.replicate 479 true ++ [true] from List.replicate_succ'] at hl
  obtain ⟨marks, final, rfl, hmarks, hfinal⟩ := List.map_eq_append_iff.mp hl
  obtain ⟨⟨last, level⟩, rfl, hlast⟩ := List.map_eq_singleton_iff.mp hfinal
  obtain rfl : level = true := hlast
  obtain ⟨hmmarks, hmlast⟩ := (heardThrough_append m marks _).mp hm
  have hlength : marks.length = 479 := by rw [← List.length_map (f := Prod.snd), hmarks, List.length_replicate]
  obtain ⟨was', -, hquiet⟩ := run_quiet m true marks was 7 (by rw [hmarks, hlength]) (.inl rfl) hmmarks (by omega)
  rw [run_append, hquiet, hlength]
  cases m with
  | none => cases was' <;> rfl
  | some chars =>
    have hlistens : last.listens = true := hmlast rfl (last, true) (List.mem_singleton_self _)
    have hend : (Reception.frame chars (.quiet was' 486)).sample last true = (.waiting true, some (.frameEnd chars)) := by
      simp only [Reception.sample, hlistens, ↓reduceIte, Receiver.receive, sample_mark, Option.toList_none, List.append_nil]
      rfl
    rw [Reception.following, run_cons, hend]
    rfl

/-! ### A whole frame -/

/-- From the first start bit of a frame to the end of its last stop bit. -/
theorem run_frame (m : Option (List RxChar)) (c : Nat × Byte × Bool) (cs : List (Nat × Byte × Bool))
    (periods : List (Exchange × Bool))
    (hl : periods.map Prod.snd = (charBody c.2.1 c.2.2 ++ List.replicate 7 c.2.2) ++ cs.flatMap charWave)
    (hchain : (c :: cs).IsChain fun x y => x.2.2 = true ∨ 1 ≤ y.1) (hgaps : ∀ y ∈ cs, y.1 < 480)
    (hm : heardThrough m periods) (hroom : ∀ chars, m = some chars → chars.length + (cs.length + 1) ≤ 32) :
    ∃ z, (c :: cs).getLast? = some z ∧ (Reception.following m (.inChar false 1 0)).run periods =
      (.following (withChars m (⟨c.2.1, c.2.2, false⟩ :: cs.map laterChar)) (.quiet z.2.2 7), []) := by
  obtain ⟨first, rest, rfl, hfirst, hrest⟩ := List.map_eq_append_iff.mp hl
  obtain ⟨hmfirst, hmrest⟩ := (heardThrough_append m first rest).mp hm
  obtain ⟨z, hz, hrun⟩ := run_charWaves cs c (withChars m [⟨c.2.1, c.2.2, false⟩]) rest hrest hchain hgaps
    ((heardThrough_withChars m _ rest).mpr hmrest) fun chars hc => by
      obtain ⟨chars', hc', rfl⟩ := Option.map_eq_some_iff.mp hc
      have := hroom chars' hc'
      rw [List.length_append, List.length_singleton]
      omega
  refine ⟨z, hz, ?_⟩
  rw [run_append, run_charBody m false c.2.1 c.2.2 first hfirst hmfirst, hrun, withChars_withChars]
  rfl

/-- The periods of a frame on the line: the gap before it, its first start bit, the rest of it, and what comes after. -/
theorem frame_periods (c : Nat × Byte × Bool) (cs : List (Nat × Byte × Bool)) (tail : List Bool)
    (periods : List (Exchange × Bool)) (hl : periods.map Prod.snd = (c :: cs).flatMap charWave ++ tail) :
    ∃ marks start body ends, periods = marks ++ ((start, false) :: (body ++ ends)) ∧ marks.length = c.1 ∧
      marks.map Prod.snd = List.replicate marks.length true ∧
      body.map Prod.snd = (charBody c.2.1 c.2.2 ++ List.replicate 7 c.2.2) ++ cs.flatMap charWave ∧ ends.map Prod.snd = tail := by
  have hparts : (c :: cs).flatMap charWave ++ tail = List.replicate c.1 true ++
      (false :: (((charBody c.2.1 c.2.2 ++ List.replicate 7 c.2.2) ++ cs.flatMap charWave) ++ tail)) := by
    rw [List.flatMap_cons, charWave_eq]
    simp only [List.append_assoc, List.cons_append]
  obtain ⟨marks, frame, rfl, hmarks, hframe⟩ := List.map_eq_append_iff.mp (hl.trans hparts)
  obtain ⟨⟨start, level⟩, rest, rfl, hstart, hrest⟩ := List.map_eq_cons_iff.mp hframe
  obtain rfl : level = false := hstart
  obtain ⟨body, ends, rfl, hbody, hends⟩ := List.map_eq_append_iff.mp hrest
  have hlength : marks.length = c.1 := by rw [← List.length_map (f := Prod.snd), hmarks, List.length_replicate]
  exact ⟨marks, start, body, ends, rfl, hlength, by rw [hmarks, hlength], hbody, hends⟩

/-- The exchange state at a frame's first start bit, and the periods from there on. -/
theorem frame_begins (marks rest : List (Exchange × Bool)) (start : Exchange) (n : Nat) (h : marks.length = n) :
    (((marks ++ ((start, false) :: rest)).map Prod.fst)[n]?).map Exchange.awaits = some start.awaits ∧
      (marks ++ ((start, false) :: rest)).drop n = (start, false) :: rest := by
  refine ⟨?_, List.drop_left' h⟩
  rw [List.map_append, List.getElem?_append_right (by rw [List.length_map]; omega), List.length_map, h, Nat.sub_self]
  rfl

/-- The periods behind a frame's gap, when the frame is received and when it is passed over. -/
theorem run_fromMarks (marks rest : List (Exchange × Bool)) (start : Exchange)
    (hmarks : marks.map Prod.snd = List.replicate marks.length true) :
    (start.awaits = true → (Reception.waiting true).run (marks ++ ((start, false) :: rest)) =
      (((Reception.following (some []) (.inChar false 1 0)).run rest).1,
        .replyStart :: ((Reception.following (some []) (.inChar false 1 0)).run rest).2)) ∧
    (start.awaits = false → (Reception.waiting true).run (marks ++ ((start, false) :: rest)) =
      (Reception.following none (.inChar false 1 0)).run rest) := by
  rw [run_append, run_waiting marks hmarks]
  exact run_firstStart start rest

/-- A frame and the silence after it: received from AWAIT_REPLY, brought nothing of from any other state. -/
theorem run_wholeFrame (c : Nat × Byte × Bool) (cs : List (Nat × Byte × Bool)) (periods : List (Exchange × Bool))
    (hl : periods.map Prod.snd = (c :: cs).flatMap charWave ++ List.replicate 480 true)
    (hchain : (c :: cs).IsChain fun x y => x.2.2 = true ∨ 1 ≤ y.1) (hgaps : ∀ y ∈ cs, y.1 < 480) :
    (cs.length ≤ 31 → ((periods.map Prod.fst)[c.1]?).map Exchange.awaits = some true →
      (∀ p ∈ periods.drop c.1, p.1.listens = true) → (Reception.waiting true).run periods =
        (.waiting true, [.replyStart, .frameEnd (⟨c.2.1, c.2.2, false⟩ :: cs.map laterChar)])) ∧
    (((periods.map Prod.fst)[c.1]?).map Exchange.awaits = some false →
      (Reception.waiting true).run periods = (.waiting true, [])) := by
  obtain ⟨marks, start, body, ends, rfl, hlength, hmarks, hbody, hends⟩ := frame_periods c cs _ periods hl
  obtain ⟨hbegins, hdrop⟩ := frame_begins marks (body ++ ends) start c.1 hlength
  obtain ⟨hreceived, hpassed⟩ := run_fromMarks marks (body ++ ends) start hmarks
  rw [hbegins, hdrop]
  refine ⟨fun h31 hb hlisten => ?_, fun hb => ?_⟩
  · have hm : heardThrough (some []) (body ++ ends) := fun _ p hp => hlisten p (List.mem_cons_of_mem _ hp)
    obtain ⟨hmbody, hmends⟩ := (heardThrough_append _ body ends).mp hm
    obtain ⟨z, -, hrun⟩ := run_frame (some []) c cs body hbody hchain hgaps hmbody fun chars hc => by
      obtain rfl := Option.some.inj hc
      rw [List.length_nil]
      omega
    rw [hreceived (Option.some.inj hb), run_append, hrun,
      run_silence _ z.2.2 ends hends ((heardThrough_withChars _ _ ends).mpr hmends)]
    rfl
  · obtain ⟨z, -, hrun⟩ := run_frame none c cs body hbody hchain hgaps (heardThrough_none body) nofun
    rw [hpassed (Option.some.inj hb), run_append, hrun, run_silence (withChars none _) z.2.2 ends hends (heardThrough_none ends)]
    rfl

/-- The start bit of a 33rd character ends the reception. -/
theorem run_tooLong (c : Nat × Byte × Bool) (cs : List (Nat × Byte × Bool)) (gap : Nat) (periods : List (Exchange × Bool))
    (h31 : cs.length = 31)
    (hl : periods.map Prod.snd = (c :: cs).flatMap charWave ++ (List.replicate gap true ++ [false]))
    (hchain : (c :: cs ++ [(gap, (0 : Byte), true)]).IsChain fun x y => x.2.2 = true ∨ 1 ≤ y.1)
    (hgaps : ∀ y ∈ cs ++ [(gap, (0 : Byte), true)], y.1 < 480)
    (hb : ((periods.map Prod.fst)[c.1]?).map Exchange.awaits = some true)
    (hlisten : ∀ p ∈ periods.drop c.1, p.1.listens = true) : (Reception.waiting true).run periods =
      (.passed (.inChar (decide (240 ≤ gap)) 1 0), [.replyStart, .thirtyThirdCharacter]) := by
  obtain ⟨marks, start, body, ends, rfl, hlength, hmarks, hbody, hends⟩ := frame_periods c cs _ periods hl
  obtain ⟨hbegins, hdrop⟩ := frame_begins marks (body ++ ends) start c.1 hlength
  rw [hbegins] at hb
  rw [hdrop] at hlisten
  have hm : heardThrough (some []) (body ++ ends) := fun _ p hp => hlisten p (List.mem_cons_of_mem _ hp)
  obtain ⟨hmbody, hmends⟩ := (heardThrough_append _ body ends).mp hm
  obtain ⟨hframe, -, hlast⟩ := List.isChain_append.mp hchain
  obtain ⟨z, hz, hrun⟩ := run_frame (some []) c cs body hbody hframe (fun y hy => hgaps y (List.mem_append_left _ hy)) hmbody
    fun chars hc => by
      obtain rfl := Option.some.inj hc
      rw [List.length_nil]
      omega
  have hmark : z.2.2 = true ∨ 1 ≤ gap := hlast z hz _ rfl
  obtain ⟨silence, final, rfl, hsilence, hfinal⟩ := List.map_eq_append_iff.mp hends
  obtain ⟨⟨last, level⟩, rfl, hlevel⟩ := List.map_eq_singleton_iff.mp hfinal
  obtain rfl : level = false := hlevel
  obtain ⟨hmsilence, hmlast⟩ := (heardThrough_append _ silence _).mp hmends
  have hgap : silence.length = gap := by rw [← List.length_map (f := Prod.snd), hsilence, List.length_replicate]
  have hlt : gap < 480 := hgaps _ (List.mem_append_right _ (List.mem_singleton_self _))
  obtain ⟨was', hwas, hquiet⟩ := run_quiet (some ([] ++ (⟨c.2.1, c.2.2, false⟩ :: cs.map laterChar))) true silence z.2.2 7
    (by rw [hsilence, hgap]) (.inl rfl) (fun _ => hmsilence rfl) (by omega)
  have hwas' : was' = true := hwas.elim id fun ⟨hnone, hsame⟩ =>
    hsame.trans (hmark.resolve_right (by rw [← hgap, hnone]; nofun))
  have hlistens : last.listens = true := hmlast rfl (last, false) (List.mem_singleton_self _)
  have hfull : frameMax ≤ ([] ++ ((⟨c.2.1, c.2.2, false⟩ : RxChar) :: cs.map laterChar)).length := by
    rw [List.nil_append, List.length_cons, List.length_map, h31]
    exact Nat.le_refl 32
  have hstart : (Reception.frame ([] ++ (⟨c.2.1, c.2.2, false⟩ :: cs.map laterChar)) (.quiet true (7 + gap))).sample last false =
      (.passed (.inChar (decide (247 ≤ 7 + gap)) 1 0), some .thirtyThirdCharacter) := by
    simp only [Reception.sample, hlistens, ↓reduceIte, Receiver.receive, sample_start, Receiver.start, Receiver.hasStarted,
      beq_self_eq_true, Bool.true_and, decide_eq_true hfull]
    rfl
  have hlate : decide (247 ≤ 7 + gap) = decide (240 ≤ gap) := decide_eq_decide.mpr (by omega)
  rw [(run_fromMarks marks _ start hmarks).1 (Option.some.inj hb), run_append, hrun, run_append]
  dsimp only [withChars, Option.map_some]
  rw [hquiet, hwas', hgap, Reception.following, run_cons, hstart, hlate]
  rfl

/-! ### One character from its levels -/

/-- The periods of a character by its samples: its first period a start bit, then the middles of its bits. -/
theorem char_periods (b : Byte) (stop : Bool) (periods : List (Exchange × Bool)) (hl : (periods.map Prod.snd).length = 153)
    (hstart : (periods.map Prod.snd)[0]? = some false)
    (hb : ∀ k, k < 8 → (periods.map Prod.snd)[16 * (k + 1) + 8]? = some (b.getLsbD k))
    (hstop : (periods.map Prod.snd)[152]? = some stop) :
    ∃ x rest, periods = (x, false) :: rest ∧ rest.length = 152 ∧
      (∀ k, k < 8 → (rest.map Prod.snd)[16 * (k + 1) + 7]? = some (b.getLsbD k)) ∧
      (rest.map Prod.snd)[151]? = some stop := by
  match periods with
  | [] => cases hstart
  | (x, level) :: rest =>
    obtain rfl : level = false := Option.some.inj hstart
    rw [List.length_map, List.length_cons] at hl
    exact ⟨x, rest, rfl, by omega, hb, hstop⟩

/-- A character on the line, as the first of a frame and as a later one. -/
theorem run_oneChar (b : Byte) (stop : Bool) (periods : List (Exchange × Bool)) (hl : (periods.map Prod.snd).length = 153)
    (hstart : (periods.map Prod.snd)[0]? = some false)
    (hb : ∀ k, k < 8 → (periods.map Prod.snd)[16 * (k + 1) + 8]? = some (b.getLsbD k))
    (hstop : (periods.map Prod.snd)[152]? = some stop) (hlisten : ∀ p ∈ periods, p.1.listens = true) :
    (((periods.map Prod.fst)[0]?).map Exchange.awaits = some true →
      (Reception.waiting true).run periods = (.frame [⟨b, stop, false⟩] (.quiet stop 0), [.replyStart])) ∧
    ∀ (chars : List RxChar) (since : Nat), chars.length < 32 →
      (Reception.frame chars (.quiet true since)).run periods =
        (.frame (chars ++ [⟨b, stop, decide (247 ≤ since)⟩]) (.quiet stop 0), []) := by
  obtain ⟨x, rest, rfl, hlength, hbits, hlast⟩ := char_periods b stop periods hl hstart hb hstop
  have hmrest : ∀ m, heardThrough m rest := fun _ _ p hp => hlisten p (List.mem_cons_of_mem _ hp)
  refine ⟨fun hawaits => ?_, fun chars since hroom => ?_⟩
  · rw [(run_firstStart x rest).1 (Option.some.inj hawaits),
      run_character (some []) false b stop rest hlength hbits hlast (hmrest _)]
    rfl
  · have hrun := run_start (some chars) since x rest (fun _ => hlisten) fun chars' hc => by
      obtain rfl := Option.some.inj hc
      exact hroom
    exact hrun.trans (run_character (some chars) _ b stop rest hlength hbits hlast (hmrest _))

/-! ### The states in which characters are taken -/

theorem awaits_iff (x : Exchange) : x.awaits = true ↔ ∃ a left, x = .awaitReply a left := by
  cases x <;> simp [Exchange.awaits]

theorem listens_iff (x : Exchange) :
    x.listens = true ↔ (∃ a left, x = .awaitReply a left) ∨ ∃ a, x = .receiving a := by
  cases x <;> simp [Exchange.listens]

/-- Nothing is received while RL_DE is asserted, nor in a state that does not listen. -/
theorem hear_deaf (s : State) (r : Reception) (level : Bool) (h : s.rlDe = true ∨ s.line.exchange.listens = false) :
    (s.hear r level).2 = none ∧ ∀ chars receiver, (s.hear r level).1 ≠ .frame chars receiver := by
  refine sample_deaf s.line.exchange level r (h.elim (fun hde => ?_) id)
  refine Bool.not_eq_true _ ▸ fun hl => ?_
  rw [listens_not_sending s hl] at hde
  cases hde

theorem hear_frame (s : State) (chars : List RxChar) (receiver : Receiver) (level : Bool)
    (h : s.line.exchange.listens = false) : s.hear (.frame chars receiver) level = s.hear (.passed receiver) level := by
  simp only [State.hear, Reception.sample, h, Bool.false_eq_true, ↓reduceIte]

/-- Settles O5: the judgement of a frame, one character, whole frames of the waveform, and the states that listen. -/
theorem receptionJudgesReplies : Obligations.ReceptionJudgesReplies := by
  refine ⟨fun i f hw hf => ?_, fun a chars => ⟨validReply_refuses a chars, validReply_takes a chars⟩,
    fun b stop periods hl hstart hb hstop hlisten => run_oneChar b stop periods hl hstart hb hstop hlisten,
    fun c cs periods => ⟨fun hl hears => run_wholeFrame c cs periods hl hears.2 hears.1, fun gap h31 hears hl hb hlisten => ?_⟩,
    fun s r level => ⟨awaits_iff _, listens_iff _, rfl, hear_deaf s r level, fun chars receiver => hear_frame s chars receiver level,
      fun receiver => ?_⟩⟩
  · obtain ⟨h1, h30, hbody⟩ := wellFormed_reply i f hw hf
    exact validReply_bytes f h1 h30 hbody
  · exact run_tooLong c cs gap periods h31 (hl.trans (List.append_assoc _ _ _)) hears.2 hears.1 hb hlisten
  · change (receiver.pass level, none) = _
    unfold Receiver.pass
    cases (receiver.sample level).1 with
    | quiet was since =>
      have hsilent : (Receiver.quiet was since).isSilent = true ↔ 487 ≤ since := decide_eq_true_iff
      exact congrArg (·, none) (if_congr hsilent rfl rfl)
    | inChar late period data => rfl

end Sys2Proof.Machine
end
